-- ==== Sys2Proof/Word.lean ====
section
/-! DEFINITION. The two word types of the machine (R2, R6, R8): everything is 8 or 16 bits wide and wraps. -/

namespace Sys2Proof

/-- A byte, b7..b0 with b0 least significant (R7). -/
abbrev Byte := BitVec 8

/-- A 16-bit register or address; the address space has 65,536 locations (R60). -/
abbrev Word := BitVec 16

end Sys2Proof
end

