-- ==== Sys2Proof/Machine/Bits.lean ====
section
/-! DEFINITION. Bytes of words, and the two extensions of address formation (R8, R64, R68). -/

namespace Sys2Proof

/-- `a : b`, the first byte more significant (R8, R64). -/
def joinBytes (hi lo : Byte) : Word := hi ++ lo

/-- `v[15:8]` (R8). -/
def highByte (w : Word) : Byte := w.extractLsb' 8 8

/-- `v[7:0]` (R8). -/
def lowByte (w : Word) : Byte := w.extractLsb' 0 8

/-- `zext_16` (R8): direct addresses and index offsets are unsigned (R106, R107). -/
def zext16 (b : Byte) : Word := b.zeroExtend 16

/-- `sext_16` (R8): branch offsets are two's complement (R109, D9). -/
def sext16 (b : Byte) : Word := b.signExtend 16

end Sys2Proof
end

