-- ==== Sys2Proof/Syntax.lean ====
section
/-! DEFINITION. The instruction set: one constructor for each of the 197 assigned opcodes (R103), carrying the operand
bytes of its format (R100), and the form builders that group them by the fields of the opcode byte (R102). -/

namespace Sys2Proof

/-- The 197 instructions, in opcode order.  `m` is the immediate byte, `w` a 16-bit immediate or extended address,
`d` a direct address byte, `off` an unsigned index offset, `rel` a two's-complement branch offset (R104 to R109). -/
inductive Instr where
  /-- 01 NOP, inherent (R329) -/
  | nop
  /-- 06 TAP, inherent (R147) -/
  | tap
  /-- 07 TPA, inherent (R148) -/
  | tpa
  /-- 08 INX, inherent (R283) -/
  | inx
  /-- 09 DEX, inherent (R281) -/
  | dex
  /-- 0A CLV, inherent (R143) -/
  | clv
  /-- 0B SEV, inherent (R146) -/
  | sev
  /-- 0C CLC, inherent (R141) -/
  | clc
  /-- 0D SEC, inherent (R144) -/
  | sec
  /-- 0E CLI, inherent (R142) -/
  | cli
  /-- 0F SEI, inherent (R145) -/
  | sei
  /-- 10 SBA, inherent (R171) -/
  | sba
  /-- 11 CBA, inherent (R214) -/
  | cba
  /-- 16 TAB, inherent (R264) -/
  | tab
  /-- 17 TBA, inherent (R265) -/
  | tba
  /-- 19 DAA, inherent (R177) -/
  | daa
  /-- 1B ABA, inherent (R166) -/
  | aba
  /-- 20 BRA, relative (R311) -/
  | bra (rel : Byte)
  /-- 22 BHI, relative (R317) -/
  | bhi (rel : Byte)
  /-- 23 BLS, relative (R319) -/
  | bls (rel : Byte)
  /-- 24 BCC, relative (R312) -/
  | bcc (rel : Byte)
  /-- 25 BCS, relative (R313) -/
  | bcs (rel : Byte)
  /-- 26 BNE, relative (R322) -/
  | bne (rel : Byte)
  /-- 27 BEQ, relative (R314) -/
  | beq (rel : Byte)
  /-- 28 BVC, relative (R323) -/
  | bvc (rel : Byte)
  /-- 29 BVS, relative (R324) -/
  | bvs (rel : Byte)
  /-- 2A BPL, relative (R325) -/
  | bpl (rel : Byte)
  /-- 2B BMI, relative (R321) -/
  | bmi (rel : Byte)
  /-- 2C BGE, relative (R315) -/
  | bge (rel : Byte)
  /-- 2D BLT, relative (R320) -/
  | blt (rel : Byte)
  /-- 2E BGT, relative (R316) -/
  | bgt (rel : Byte)
  /-- 2F BLE, relative (R318) -/
  | ble (rel : Byte)
  /-- 30 TSX, inherent (R290) -/
  | tsx
  /-- 31 INS, inherent (R284) -/
  | ins
  /-- 32 PULA, inherent (R244) -/
  | pula
  /-- 33 PULB, inherent (R245) -/
  | pulb
  /-- 34 DES, inherent (R282) -/
  | des
  /-- 35 TXS, inherent (R289) -/
  | txs
  /-- 36 PSHA, inherent (R242) -/
  | psha
  /-- 37 PSHB, inherent (R243) -/
  | pshb
  /-- 39 RTS, inherent (R331) -/
  | rts
  /-- 3B RTI, inherent (R330) -/
  | rti
  /-- 3E WAI, inherent (R333) -/
  | wai
  /-- 3F SWI, inherent (R332) -/
  | swi
  /-- 40 NEGA, inherent (R175) -/
  | nega
  /-- 43 COMA, inherent (R204) -/
  | coma
  /-- 44 LSRA, inherent (R260) -/
  | lsra
  /-- 46 RORA, inherent (R251) -/
  | rora
  /-- 47 ASRA, inherent (R257) -/
  | asra
  /-- 48 ASLA, inherent (R254) -/
  | asla
  /-- 49 ROLA, inherent (R248) -/
  | rola
  /-- 4A DECA, inherent (R235) -/
  | deca
  /-- 4C INCA, inherent (R238) -/
  | inca
  /-- 4D TSTA, inherent (R217) -/
  | tsta
  /-- 4F CLRA, inherent (R232) -/
  | clra
  /-- 50 NEGB, inherent (R176) -/
  | negb
  /-- 53 COMB, inherent (R205) -/
  | comb
  /-- 54 LSRB, inherent (R261) -/
  | lsrb
  /-- 56 RORB, inherent (R252) -/
  | rorb
  /-- 57 ASRB, inherent (R258) -/
  | asrb
  /-- 58 ASLB, inherent (R255) -/
  | aslb
  /-- 59 ROLB, inherent (R249) -/
  | rolb
  /-- 5A DECB, inherent (R236) -/
  | decb
  /-- 5C INCB, inherent (R239) -/
  | incb
  /-- 5D TSTB, inherent (R218) -/
  | tstb
  /-- 5F CLRB, inherent (R233) -/
  | clrb
  /-- 60 NEG, indexed (R174) -/
  | negIdx (off : Byte)
  /-- 63 COM, indexed (R203) -/
  | comIdx (off : Byte)
  /-- 64 LSR, indexed (R259) -/
  | lsrIdx (off : Byte)
  /-- 66 ROR, indexed (R250) -/
  | rorIdx (off : Byte)
  /-- 67 ASR, indexed (R256) -/
  | asrIdx (off : Byte)
  /-- 68 ASL, indexed (R253) -/
  | aslIdx (off : Byte)
  /-- 69 ROL, indexed (R247) -/
  | rolIdx (off : Byte)
  /-- 6A DEC, indexed (R234) -/
  | decIdx (off : Byte)
  /-- 6C INC, indexed (R237) -/
  | incIdx (off : Byte)
  /-- 6D TST, indexed (R216) -/
  | tstIdx (off : Byte)
  /-- 6E JMP, indexed (R327) -/
  | jmpIdx (off : Byte)
  /-- 6F CLR, indexed (R231) -/
  | clrIdx (off : Byte)
  /-- 70 NEG, extended (R174) -/
  | negExt (w : Word)
  /-- 73 COM, extended (R203) -/
  | comExt (w : Word)
  /-- 74 LSR, extended (R259) -/
  | lsrExt (w : Word)
  /-- 76 ROR, extended (R250) -/
  | rorExt (w : Word)
  /-- 77 ASR, extended (R256) -/
  | asrExt (w : Word)
  /-- 78 ASL, extended (R253) -/
  | aslExt (w : Word)
  /-- 79 ROL, extended (R247) -/
  | rolExt (w : Word)
  /-- 7A DEC, extended (R234) -/
  | decExt (w : Word)
  /-- 7C INC, extended (R237) -/
  | incExt (w : Word)
  /-- 7D TST, extended (R216) -/
  | tstExt (w : Word)
  /-- 7E JMP, extended (R327) -/
  | jmpExt (w : Word)
  /-- 7F CLR, extended (R231) -/
  | clrExt (w : Word)
  /-- 80 SUBA, immediate (R169) -/
  | subaImm (m : Byte)
  /-- 81 CMPA, immediate (R212) -/
  | cmpaImm (m : Byte)
  /-- 82 SBCA, immediate (R172) -/
  | sbcaImm (m : Byte)
  /-- 84 ANDA, immediate (R201) -/
  | andaImm (m : Byte)
  /-- 85 BITA, immediate (R210) -/
  | bitaImm (m : Byte)
  /-- 86 LDAA, immediate (R240) -/
  | ldaaImm (m : Byte)
  /-- 88 EORA, immediate (R206) -/
  | eoraImm (m : Byte)
  /-- 89 ADCA, immediate (R167) -/
  | adcaImm (m : Byte)
  /-- 8A ORAA, immediate (R208) -/
  | oraaImm (m : Byte)
  /-- 8B ADDA, immediate (R164) -/
  | addaImm (m : Byte)
  /-- 8C CPX, 16-bit immediate (R280) -/
  | cpxImm (w : Word)
  /-- 8D BSR, relative (R326) -/
  | bsr (rel : Byte)
  /-- 8E LDS, 16-bit immediate (R286) -/
  | ldsImm (w : Word)
  /-- 90 SUBA, direct (R169) -/
  | subaDir (d : Byte)
  /-- 91 CMPA, direct (R212) -/
  | cmpaDir (d : Byte)
  /-- 92 SBCA, direct (R172) -/
  | sbcaDir (d : Byte)
  /-- 94 ANDA, direct (R201) -/
  | andaDir (d : Byte)
  /-- 95 BITA, direct (R210) -/
  | bitaDir (d : Byte)
  /-- 96 LDAA, direct (R240) -/
  | ldaaDir (d : Byte)
  /-- 97 STAA, direct (R262) -/
  | staaDir (d : Byte)
  /-- 98 EORA, direct (R206) -/
  | eoraDir (d : Byte)
  /-- 99 ADCA, direct (R167) -/
  | adcaDir (d : Byte)
  /-- 9A ORAA, direct (R208) -/
  | oraaDir (d : Byte)
  /-- 9B ADDA, direct (R164) -/
  | addaDir (d : Byte)
  /-- 9C CPX, direct (R280) -/
  | cpxDir (d : Byte)
  /-- 9E LDS, direct (R286) -/
  | ldsDir (d : Byte)
  /-- 9F STS, direct (R288) -/
  | stsDir (d : Byte)
  /-- A0 SUBA, indexed (R169) -/
  | subaIdx (off : Byte)
  /-- A1 CMPA, indexed (R212) -/
  | cmpaIdx (off : Byte)
  /-- A2 SBCA, indexed (R172) -/
  | sbcaIdx (off : Byte)
  /-- A4 ANDA, indexed (R201) -/
  | andaIdx (off : Byte)
  /-- A5 BITA, indexed (R210) -/
  | bitaIdx (off : Byte)
  /-- A6 LDAA, indexed (R240) -/
  | ldaaIdx (off : Byte)
  /-- A7 STAA, indexed (R262) -/
  | staaIdx (off : Byte)
  /-- A8 EORA, indexed (R206) -/
  | eoraIdx (off : Byte)
  /-- A9 ADCA, indexed (R167) -/
  | adcaIdx (off : Byte)
  /-- AA ORAA, indexed (R208) -/
  | oraaIdx (off : Byte)
  /-- AB ADDA, indexed (R164) -/
  | addaIdx (off : Byte)
  /-- AC CPX, indexed (R280) -/
  | cpxIdx (off : Byte)
  /-- AD JSR, indexed (R328) -/
  | jsrIdx (off : Byte)
  /-- AE LDS, indexed (R286) -/
  | ldsIdx (off : Byte)
  /-- AF STS, indexed (R288) -/
  | stsIdx (off : Byte)
  /-- B0 SUBA, extended (R169) -/
  | subaExt (w : Word)
  /-- B1 CMPA, extended (R212) -/
  | cmpaExt (w : Word)
  /-- B2 SBCA, extended (R172) -/
  | sbcaExt (w : Word)
  /-- B4 ANDA, extended (R201) -/
  | andaExt (w : Word)
  /-- B5 BITA, extended (R210) -/
  | bitaExt (w : Word)
  /-- B6 LDAA, extended (R240) -/
  | ldaaExt (w : Word)
  /-- B7 STAA, extended (R262) -/
  | staaExt (w : Word)
  /-- B8 EORA, extended (R206) -/
  | eoraExt (w : Word)
  /-- B9 ADCA, extended (R167) -/
  | adcaExt (w : Word)
  /-- BA ORAA, extended (R208) -/
  | oraaExt (w : Word)
  /-- BB ADDA, extended (R164) -/
  | addaExt (w : Word)
  /-- BC CPX, extended (R280) -/
  | cpxExt (w : Word)
  /-- BD JSR, extended (R328) -/
  | jsrExt (w : Word)
  /-- BE LDS, extended (R286) -/
  | ldsExt (w : Word)
  /-- BF STS, extended (R288) -/
  | stsExt (w : Word)
  /-- C0 SUBB, immediate (R170) -/
  | subbImm (m : Byte)
  /-- C1 CMPB, immediate (R213) -/
  | cmpbImm (m : Byte)
  /-- C2 SBCB, immediate (R173) -/
  | sbcbImm (m : Byte)
  /-- C4 ANDB, immediate (R202) -/
  | andbImm (m : Byte)
  /-- C5 BITB, immediate (R211) -/
  | bitbImm (m : Byte)
  /-- C6 LDAB, immediate (R241) -/
  | ldabImm (m : Byte)
  /-- C8 EORB, immediate (R207) -/
  | eorbImm (m : Byte)
  /-- C9 ADCB, immediate (R168) -/
  | adcbImm (m : Byte)
  /-- CA ORAB, immediate (R209) -/
  | orabImm (m : Byte)
  /-- CB ADDB, immediate (R165) -/
  | addbImm (m : Byte)
  /-- CE LDX, 16-bit immediate (R285) -/
  | ldxImm (w : Word)
  /-- D0 SUBB, direct (R170) -/
  | subbDir (d : Byte)
  /-- D1 CMPB, direct (R213) -/
  | cmpbDir (d : Byte)
  /-- D2 SBCB, direct (R173) -/
  | sbcbDir (d : Byte)
  /-- D4 ANDB, direct (R202) -/
  | andbDir (d : Byte)
  /-- D5 BITB, direct (R211) -/
  | bitbDir (d : Byte)
  /-- D6 LDAB, direct (R241) -/
  | ldabDir (d : Byte)
  /-- D7 STAB, direct (R263) -/
  | stabDir (d : Byte)
  /-- D8 EORB, direct (R207) -/
  | eorbDir (d : Byte)
  /-- D9 ADCB, direct (R168) -/
  | adcbDir (d : Byte)
  /-- DA ORAB, direct (R209) -/
  | orabDir (d : Byte)
  /-- DB ADDB, direct (R165) -/
  | addbDir (d : Byte)
  /-- DE LDX, direct (R285) -/
  | ldxDir (d : Byte)
  /-- DF STX, direct (R287) -/
  | stxDir (d : Byte)
  /-- E0 SUBB, indexed (R170) -/
  | subbIdx (off : Byte)
  /-- E1 CMPB, indexed (R213) -/
  | cmpbIdx (off : Byte)
  /-- E2 SBCB, indexed (R173) -/
  | sbcbIdx (off : Byte)
  /-- E4 ANDB, indexed (R202) -/
  | andbIdx (off : Byte)
  /-- E5 BITB, indexed (R211) -/
  | bitbIdx (off : Byte)
  /-- E6 LDAB, indexed (R241) -/
  | ldabIdx (off : Byte)
  /-- E7 STAB, indexed (R263) -/
  | stabIdx (off : Byte)
  /-- E8 EORB, indexed (R207) -/
  | eorbIdx (off : Byte)
  /-- E9 ADCB, indexed (R168) -/
  | adcbIdx (off : Byte)
  /-- EA ORAB, indexed (R209) -/
  | orabIdx (off : Byte)
  /-- EB ADDB, indexed (R165) -/
  | addbIdx (off : Byte)
  /-- EE LDX, indexed (R285) -/
  | ldxIdx (off : Byte)
  /-- EF STX, indexed (R287) -/
  | stxIdx (off : Byte)
  /-- F0 SUBB, extended (R170) -/
  | subbExt (w : Word)
  /-- F1 CMPB, extended (R213) -/
  | cmpbExt (w : Word)
  /-- F2 SBCB, extended (R173) -/
  | sbcbExt (w : Word)
  /-- F4 ANDB, extended (R202) -/
  | andbExt (w : Word)
  /-- F5 BITB, extended (R211) -/
  | bitbExt (w : Word)
  /-- F6 LDAB, extended (R241) -/
  | ldabExt (w : Word)
  /-- F7 STAB, extended (R263) -/
  | stabExt (w : Word)
  /-- F8 EORB, extended (R207) -/
  | eorbExt (w : Word)
  /-- F9 ADCB, extended (R168) -/
  | adcbExt (w : Word)
  /-- FA ORAB, extended (R209) -/
  | orabExt (w : Word)
  /-- FB ADDB, extended (R165) -/
  | addbExt (w : Word)
  /-- FE LDX, extended (R285) -/
  | ldxExt (w : Word)
  /-- FF STX, extended (R287) -/
  | stxExt (w : Word)
deriving DecidableEq, Repr

/-- The accumulator an instruction names (R22, R23). -/
inductive Acc where
  | a
  | b
deriving DecidableEq, Repr

/-- A memory operand of the dual-operand group: direct, indexed or extended (R106 to R108). -/
inductive Ea where
  | dir (d : Byte)
  | idx (off : Byte)
  | ext (w : Word)
deriving DecidableEq, Repr

/-- The operand of an 8-bit dual-operand instruction (R110). -/
inductive Operand8 where
  | imm (m : Byte)
  | mem (e : Ea)
deriving DecidableEq, Repr

/-- The operand of CPX, LDX and LDS (R105, R110). -/
inductive Operand16 where
  | imm (w : Word)
  | mem (e : Ea)
deriving DecidableEq, Repr

/-- A memory operand of the single-operand group, of JMP and of JSR: indexed or extended only (R230, R327). -/
inductive Ptr where
  | idx (off : Byte)
  | ext (w : Word)
deriving DecidableEq, Repr

/-- The address form of a single-operand memory operand. -/
def Ptr.toEa : Ptr → Ea
  | .idx off => .idx off
  | .ext w => .ext w

/-- The operations of the dual-operand group that read their operand, by opcode[3:0] (R102). -/
inductive DualOp where
  | sub | cmp | sbc | and | bit | lda | eor | adc | ora | add
deriving DecidableEq, Repr

/-- The operations of the single-operand group, by opcode[3:0] (R102). -/
inductive RmwOp where
  | neg | com | lsr | ror | asr | asl | rol | dec | inc | tst | clr
deriving DecidableEq, Repr

/-- The tests of the fifteen branches, by opcode[3:0] (R102, R310 to R325). -/
inductive Cond where
  | always | hi | ls | cc | cs | ne | eq | vc | vs | pl | mi | ge | lt | gt | le
deriving DecidableEq, Repr

/-- The dual-operand instruction of an operation, an accumulator and an operand (R102, rows 8 to F). -/
def Instr.dual : DualOp → Acc → Operand8 → Instr
  | .sub, .a, .imm m => .subaImm m
  | .sub, .a, .mem (.dir d) => .subaDir d
  | .sub, .a, .mem (.idx off) => .subaIdx off
  | .sub, .a, .mem (.ext w) => .subaExt w
  | .sub, .b, .imm m => .subbImm m
  | .sub, .b, .mem (.dir d) => .subbDir d
  | .sub, .b, .mem (.idx off) => .subbIdx off
  | .sub, .b, .mem (.ext w) => .subbExt w
  | .cmp, .a, .imm m => .cmpaImm m
  | .cmp, .a, .mem (.dir d) => .cmpaDir d
  | .cmp, .a, .mem (.idx off) => .cmpaIdx off
  | .cmp, .a, .mem (.ext w) => .cmpaExt w
  | .cmp, .b, .imm m => .cmpbImm m
  | .cmp, .b, .mem (.dir d) => .cmpbDir d
  | .cmp, .b, .mem (.idx off) => .cmpbIdx off
  | .cmp, .b, .mem (.ext w) => .cmpbExt w
  | .sbc, .a, .imm m => .sbcaImm m
  | .sbc, .a, .mem (.dir d) => .sbcaDir d
  | .sbc, .a, .mem (.idx off) => .sbcaIdx off
  | .sbc, .a, .mem (.ext w) => .sbcaExt w
  | .sbc, .b, .imm m => .sbcbImm m
  | .sbc, .b, .mem (.dir d) => .sbcbDir d
  | .sbc, .b, .mem (.idx off) => .sbcbIdx off
  | .sbc, .b, .mem (.ext w) => .sbcbExt w
  | .and, .a, .imm m => .andaImm m
  | .and, .a, .mem (.dir d) => .andaDir d
  | .and, .a, .mem (.idx off) => .andaIdx off
  | .and, .a, .mem (.ext w) => .andaExt w
  | .and, .b, .imm m => .andbImm m
  | .and, .b, .mem (.dir d) => .andbDir d
  | .and, .b, .mem (.idx off) => .andbIdx off
  | .and, .b, .mem (.ext w) => .andbExt w
  | .bit, .a, .imm m => .bitaImm m
  | .bit, .a, .mem (.dir d) => .bitaDir d
  | .bit, .a, .mem (.idx off) => .bitaIdx off
  | .bit, .a, .mem (.ext w) => .bitaExt w
  | .bit, .b, .imm m => .bitbImm m
  | .bit, .b, .mem (.dir d) => .bitbDir d
  | .bit, .b, .mem (.idx off) => .bitbIdx off
  | .bit, .b, .mem (.ext w) => .bitbExt w
  | .lda, .a, .imm m => .ldaaImm m
  | .lda, .a, .mem (.dir d) => .ldaaDir d
  | .lda, .a, .mem (.idx off) => .ldaaIdx off
  | .lda, .a, .mem (.ext w) => .ldaaExt w
  | .lda, .b, .imm m => .ldabImm m
  | .lda, .b, .mem (.dir d) => .ldabDir d
  | .lda, .b, .mem (.idx off) => .ldabIdx off
  | .lda, .b, .mem (.ext w) => .ldabExt w
  | .eor, .a, .imm m => .eoraImm m
  | .eor, .a, .mem (.dir d) => .eoraDir d
  | .eor, .a, .mem (.idx off) => .eoraIdx off
  | .eor, .a, .mem (.ext w) => .eoraExt w
  | .eor, .b, .imm m => .eorbImm m
  | .eor, .b, .mem (.dir d) => .eorbDir d
  | .eor, .b, .mem (.idx off) => .eorbIdx off
  | .eor, .b, .mem (.ext w) => .eorbExt w
  | .adc, .a, .imm m => .adcaImm m
  | .adc, .a, .mem (.dir d) => .adcaDir d
  | .adc, .a, .mem (.idx off) => .adcaIdx off
  | .adc, .a, .mem (.ext w) => .adcaExt w
  | .adc, .b, .imm m => .adcbImm m
  | .adc, .b, .mem (.dir d) => .adcbDir d
  | .adc, .b, .mem (.idx off) => .adcbIdx off
  | .adc, .b, .mem (.ext w) => .adcbExt w
  | .ora, .a, .imm m => .oraaImm m
  | .ora, .a, .mem (.dir d) => .oraaDir d
  | .ora, .a, .mem (.idx off) => .oraaIdx off
  | .ora, .a, .mem (.ext w) => .oraaExt w
  | .ora, .b, .imm m => .orabImm m
  | .ora, .b, .mem (.dir d) => .orabDir d
  | .ora, .b, .mem (.idx off) => .orabIdx off
  | .ora, .b, .mem (.ext w) => .orabExt w
  | .add, .a, .imm m => .addaImm m
  | .add, .a, .mem (.dir d) => .addaDir d
  | .add, .a, .mem (.idx off) => .addaIdx off
  | .add, .a, .mem (.ext w) => .addaExt w
  | .add, .b, .imm m => .addbImm m
  | .add, .b, .mem (.dir d) => .addbDir d
  | .add, .b, .mem (.idx off) => .addbIdx off
  | .add, .b, .mem (.ext w) => .addbExt w

/-- The accumulator stores STAA and STAB, which have no immediate form (R102, R105). -/
def Instr.sta : Acc → Ea → Instr
  | .a, .dir d => .staaDir d
  | .a, .idx off => .staaIdx off
  | .a, .ext w => .staaExt w
  | .b, .dir d => .stabDir d
  | .b, .idx off => .stabIdx off
  | .b, .ext w => .stabExt w

/-- The accumulator forms of the single-operand group (R102, rows 4 and 5). -/
def Instr.rmwAcc : RmwOp → Acc → Instr
  | .neg, .a => .nega
  | .neg, .b => .negb
  | .com, .a => .coma
  | .com, .b => .comb
  | .lsr, .a => .lsra
  | .lsr, .b => .lsrb
  | .ror, .a => .rora
  | .ror, .b => .rorb
  | .asr, .a => .asra
  | .asr, .b => .asrb
  | .asl, .a => .asla
  | .asl, .b => .aslb
  | .rol, .a => .rola
  | .rol, .b => .rolb
  | .dec, .a => .deca
  | .dec, .b => .decb
  | .inc, .a => .inca
  | .inc, .b => .incb
  | .tst, .a => .tsta
  | .tst, .b => .tstb
  | .clr, .a => .clra
  | .clr, .b => .clrb

/-- The memory forms of the single-operand group (R102, rows 6 and 7). -/
def Instr.rmwMem : RmwOp → Ptr → Instr
  | .neg, .idx off => .negIdx off
  | .neg, .ext w => .negExt w
  | .com, .idx off => .comIdx off
  | .com, .ext w => .comExt w
  | .lsr, .idx off => .lsrIdx off
  | .lsr, .ext w => .lsrExt w
  | .ror, .idx off => .rorIdx off
  | .ror, .ext w => .rorExt w
  | .asr, .idx off => .asrIdx off
  | .asr, .ext w => .asrExt w
  | .asl, .idx off => .aslIdx off
  | .asl, .ext w => .aslExt w
  | .rol, .idx off => .rolIdx off
  | .rol, .ext w => .rolExt w
  | .dec, .idx off => .decIdx off
  | .dec, .ext w => .decExt w
  | .inc, .idx off => .incIdx off
  | .inc, .ext w => .incExt w
  | .tst, .idx off => .tstIdx off
  | .tst, .ext w => .tstExt w
  | .clr, .idx off => .clrIdx off
  | .clr, .ext w => .clrExt w

/-- CPX with its operand (R279). -/
def Instr.cpx : Operand16 → Instr
  | .imm w => .cpxImm w
  | .mem (.dir d) => .cpxDir d
  | .mem (.idx off) => .cpxIdx off
  | .mem (.ext w) => .cpxExt w

/-- LDX with its operand (R279). -/
def Instr.ldx : Operand16 → Instr
  | .imm w => .ldxImm w
  | .mem (.dir d) => .ldxDir d
  | .mem (.idx off) => .ldxIdx off
  | .mem (.ext w) => .ldxExt w

/-- LDS with its operand (R279). -/
def Instr.lds : Operand16 → Instr
  | .imm w => .ldsImm w
  | .mem (.dir d) => .ldsDir d
  | .mem (.idx off) => .ldsIdx off
  | .mem (.ext w) => .ldsExt w

/-- STX with its operand (R279). -/
def Instr.stx : Ea → Instr
  | .dir d => .stxDir d
  | .idx off => .stxIdx off
  | .ext w => .stxExt w

/-- STS with its operand (R279). -/
def Instr.sts : Ea → Instr
  | .dir d => .stsDir d
  | .idx off => .stsIdx off
  | .ext w => .stsExt w

/-- JMP with its operand (R327, R328). -/
def Instr.jmp : Ptr → Instr
  | .idx off => .jmpIdx off
  | .ext w => .jmpExt w

/-- JSR with its operand (R327, R328). -/
def Instr.jsr : Ptr → Instr
  | .idx off => .jsrIdx off
  | .ext w => .jsrExt w

/-- The branch of a test (R102, row 2). -/
def Instr.branch : Cond → Byte → Instr
  | .always, rel => .bra rel
  | .hi, rel => .bhi rel
  | .ls, rel => .bls rel
  | .cc, rel => .bcc rel
  | .cs, rel => .bcs rel
  | .ne, rel => .bne rel
  | .eq, rel => .beq rel
  | .vc, rel => .bvc rel
  | .vs, rel => .bvs rel
  | .pl, rel => .bpl rel
  | .mi, rel => .bmi rel
  | .ge, rel => .bge rel
  | .lt, rel => .blt rel
  | .gt, rel => .bgt rel
  | .le, rel => .ble rel

/-- PSHA and PSHB. -/
def Instr.psh : Acc → Instr
  | .a => .psha
  | .b => .pshb

/-- PULA and PULB. -/
def Instr.pul : Acc → Instr
  | .a => .pula
  | .b => .pulb

end Sys2Proof
end

