-- ==== Sys2Proof/Decode.lean ====
section
/-! DEFINITION. The decoder, total on any bytes and refusing the 59 unassigned opcodes by name, and the encoder (R100 to
R113). -/

namespace Sys2Proof

/-- Why bytes are not an instruction: the opcode is one of the 59 unassigned ones (R112), or operand bytes are missing. -/
inductive DecodeError where
  | undefinedOpcode (opcode : Byte)
  | truncated
deriving DecidableEq, Repr

/-- A cell of the opcode map: what follows the opcode byte, and the instruction it makes (R100, R103). -/
inductive OpcodeCell where
  /-- unassigned (R112) -/
  | unassigned
  /-- format INH -/
  | inh (i : Instr)
  /-- formats IMM8, DIR, IDX and REL: one operand byte -/
  | byte (f : Byte → Instr)
  /-- formats IMM16 and EXT: two operand bytes, the first more significant (R64) -/
  | word (f : Word → Instr)

/-- Row 0_ of the opcode map (R103). -/
def opcodeRow0 : List OpcodeCell :=
  [.unassigned, .inh .nop, .unassigned, .unassigned,
   .unassigned, .unassigned, .inh .tap, .inh .tpa,
   .inh .inx, .inh .dex, .inh .clv, .inh .sev,
   .inh .clc, .inh .sec, .inh .cli, .inh .sei]

/-- Row 1_ of the opcode map (R103). -/
def opcodeRow1 : List OpcodeCell :=
  [.inh .sba, .inh .cba, .unassigned, .unassigned,
   .unassigned, .unassigned, .inh .tab, .inh .tba,
   .unassigned, .inh .daa, .unassigned, .inh .aba,
   .unassigned, .unassigned, .unassigned, .unassigned]

/-- Row 2_ of the opcode map (R103). -/
def opcodeRow2 : List OpcodeCell :=
  [.byte .bra, .unassigned, .byte .bhi, .byte .bls,
   .byte .bcc, .byte .bcs, .byte .bne, .byte .beq,
   .byte .bvc, .byte .bvs, .byte .bpl, .byte .bmi,
   .byte .bge, .byte .blt, .byte .bgt, .byte .ble]

/-- Row 3_ of the opcode map (R103). -/
def opcodeRow3 : List OpcodeCell :=
  [.inh .tsx, .inh .ins, .inh .pula, .inh .pulb,
   .inh .des, .inh .txs, .inh .psha, .inh .pshb,
   .unassigned, .inh .rts, .unassigned, .inh .rti,
   .unassigned, .unassigned, .inh .wai, .inh .swi]

/-- Row 4_ of the opcode map (R103). -/
def opcodeRow4 : List OpcodeCell :=
  [.inh .nega, .unassigned, .unassigned, .inh .coma,
   .inh .lsra, .unassigned, .inh .rora, .inh .asra,
   .inh .asla, .inh .rola, .inh .deca, .unassigned,
   .inh .inca, .inh .tsta, .unassigned, .inh .clra]

/-- Row 5_ of the opcode map (R103). -/
def opcodeRow5 : List OpcodeCell :=
  [.inh .negb, .unassigned, .unassigned, .inh .comb,
   .inh .lsrb, .unassigned, .inh .rorb, .inh .asrb,
   .inh .aslb, .inh .rolb, .inh .decb, .unassigned,
   .inh .incb, .inh .tstb, .unassigned, .inh .clrb]

/-- Row 6_ of the opcode map (R103). -/
def opcodeRow6 : List OpcodeCell :=
  [.byte .negIdx, .unassigned, .unassigned, .byte .comIdx,
   .byte .lsrIdx, .unassigned, .byte .rorIdx, .byte .asrIdx,
   .byte .aslIdx, .byte .rolIdx, .byte .decIdx, .unassigned,
   .byte .incIdx, .byte .tstIdx, .byte .jmpIdx, .byte .clrIdx]

/-- Row 7_ of the opcode map (R103). -/
def opcodeRow7 : List OpcodeCell :=
  [.word .negExt, .unassigned, .unassigned, .word .comExt,
   .word .lsrExt, .unassigned, .word .rorExt, .word .asrExt,
   .word .aslExt, .word .rolExt, .word .decExt, .unassigned,
   .word .incExt, .word .tstExt, .word .jmpExt, .word .clrExt]

/-- Row 8_ of the opcode map (R103). -/
def opcodeRow8 : List OpcodeCell :=
  [.byte .subaImm, .byte .cmpaImm, .byte .sbcaImm, .unassigned,
   .byte .andaImm, .byte .bitaImm, .byte .ldaaImm, .unassigned,
   .byte .eoraImm, .byte .adcaImm, .byte .oraaImm, .byte .addaImm,
   .word .cpxImm, .byte .bsr, .word .ldsImm, .unassigned]

/-- Row 9_ of the opcode map (R103). -/
def opcodeRow9 : List OpcodeCell :=
  [.byte .subaDir, .byte .cmpaDir, .byte .sbcaDir, .unassigned,
   .byte .andaDir, .byte .bitaDir, .byte .ldaaDir, .byte .staaDir,
   .byte .eoraDir, .byte .adcaDir, .byte .oraaDir, .byte .addaDir,
   .byte .cpxDir, .unassigned, .byte .ldsDir, .byte .stsDir]

/-- Row A_ of the opcode map (R103). -/
def opcodeRowA : List OpcodeCell :=
  [.byte .subaIdx, .byte .cmpaIdx, .byte .sbcaIdx, .unassigned,
   .byte .andaIdx, .byte .bitaIdx, .byte .ldaaIdx, .byte .staaIdx,
   .byte .eoraIdx, .byte .adcaIdx, .byte .oraaIdx, .byte .addaIdx,
   .byte .cpxIdx, .byte .jsrIdx, .byte .ldsIdx, .byte .stsIdx]

/-- Row B_ of the opcode map (R103). -/
def opcodeRowB : List OpcodeCell :=
  [.word .subaExt, .word .cmpaExt, .word .sbcaExt, .unassigned,
   .word .andaExt, .word .bitaExt, .word .ldaaExt, .word .staaExt,
   .word .eoraExt, .word .adcaExt, .word .oraaExt, .word .addaExt,
   .word .cpxExt, .word .jsrExt, .word .ldsExt, .word .stsExt]

/-- Row C_ of the opcode map (R103). -/
def opcodeRowC : List OpcodeCell :=
  [.byte .subbImm, .byte .cmpbImm, .byte .sbcbImm, .unassigned,
   .byte .andbImm, .byte .bitbImm, .byte .ldabImm, .unassigned,
   .byte .eorbImm, .byte .adcbImm, .byte .orabImm, .byte .addbImm,
   .unassigned, .unassigned, .word .ldxImm, .unassigned]

/-- Row D_ of the opcode map (R103). -/
def opcodeRowD : List OpcodeCell :=
  [.byte .subbDir, .byte .cmpbDir, .byte .sbcbDir, .unassigned,
   .byte .andbDir, .byte .bitbDir, .byte .ldabDir, .byte .stabDir,
   .byte .eorbDir, .byte .adcbDir, .byte .orabDir, .byte .addbDir,
   .unassigned, .unassigned, .byte .ldxDir, .byte .stxDir]

/-- Row E_ of the opcode map (R103). -/
def opcodeRowE : List OpcodeCell :=
  [.byte .subbIdx, .byte .cmpbIdx, .byte .sbcbIdx, .unassigned,
   .byte .andbIdx, .byte .bitbIdx, .byte .ldabIdx, .byte .stabIdx,
   .byte .eorbIdx, .byte .adcbIdx, .byte .orabIdx, .byte .addbIdx,
   .unassigned, .unassigned, .byte .ldxIdx, .byte .stxIdx]

/-- Row F_ of the opcode map (R103). -/
def opcodeRowF : List OpcodeCell :=
  [.word .subbExt, .word .cmpbExt, .word .sbcbExt, .unassigned,
   .word .andbExt, .word .bitbExt, .word .ldabExt, .word .stabExt,
   .word .eorbExt, .word .adcbExt, .word .orabExt, .word .addbExt,
   .unassigned, .unassigned, .word .ldxExt, .word .stxExt]

/-- The opcode map (R103), row by row. -/
def opcodeRows : List (List OpcodeCell) :=
  [opcodeRow0, opcodeRow1, opcodeRow2, opcodeRow3, opcodeRow4, opcodeRow5, opcodeRow6, opcodeRow7,
   opcodeRow8, opcodeRow9, opcodeRowA, opcodeRowB, opcodeRowC, opcodeRowD, opcodeRowE, opcodeRowF]

/-- The cell of an opcode: row opcode[7:4], column opcode[3:0] (R103). -/
def opcodeCell (opcode : Byte) : OpcodeCell :=
  ((opcodeRows[opcode.toNat / 16]?.getD [])[opcode.toNat % 16]?).getD .unassigned

/-- The length of a cell's instructions (R101); an unassigned opcode is read alone. -/
def OpcodeCell.length : OpcodeCell → Nat
  | .unassigned => 1
  | .inh _ => 1
  | .byte _ => 2
  | .word _ => 3

/-- One instruction and the bytes after it.  The opcode byte alone decides the instruction and its length (R100). -/
def decode : List Byte → Except DecodeError (Instr × List Byte)
  | [] => .error .truncated
  | opcode :: rest =>
    match opcodeCell opcode, rest with
    | .unassigned, _ => .error (.undefinedOpcode opcode)
    | .inh i, rest => .ok (i, rest)
    | .byte f, b :: rest => .ok (f b, rest)
    | .word f, hi :: lo :: rest => .ok (f (joinBytes hi lo), rest)
    | .byte _, [] => .error .truncated
    | .word _, _ => .error .truncated

/-- The instruction whose bytes, the first lowest, are the number `w` of `nbits` bits (zeros above them). -/
def decodeTableWord (nbits w : Nat) : Option Instr :=
  let v := w % 2 ^ nbits
  match decode [BitVec.ofNat 8 v, BitVec.ofNat 8 (v / 256), BitVec.ofNat 8 (v / 65536)] with
  | .ok (i, _) => some i
  | .error _ => none

/-- The opcode byte and one operand byte. -/
def encodeByte (opcode b : Byte) : List Byte := [opcode, b]

/-- The opcode byte and two operand bytes, the high byte first (R64). -/
def encodeWord (opcode : Byte) (w : Word) : List Byte := [opcode, highByte w, lowByte w]

/-- The bytes of an instruction, the opcode byte first (R100, R103). -/
def encode : Instr → List Byte
  | .nop => [0x01]
  | .tap => [0x06]
  | .tpa => [0x07]
  | .inx => [0x08]
  | .dex => [0x09]
  | .clv => [0x0A]
  | .sev => [0x0B]
  | .clc => [0x0C]
  | .sec => [0x0D]
  | .cli => [0x0E]
  | .sei => [0x0F]
  | .sba => [0x10]
  | .cba => [0x11]
  | .tab => [0x16]
  | .tba => [0x17]
  | .daa => [0x19]
  | .aba => [0x1B]
  | .bra rel => encodeByte 0x20 rel
  | .bhi rel => encodeByte 0x22 rel
  | .bls rel => encodeByte 0x23 rel
  | .bcc rel => encodeByte 0x24 rel
  | .bcs rel => encodeByte 0x25 rel
  | .bne rel => encodeByte 0x26 rel
  | .beq rel => encodeByte 0x27 rel
  | .bvc rel => encodeByte 0x28 rel
  | .bvs rel => encodeByte 0x29 rel
  | .bpl rel => encodeByte 0x2A rel
  | .bmi rel => encodeByte 0x2B rel
  | .bge rel => encodeByte 0x2C rel
  | .blt rel => encodeByte 0x2D rel
  | .bgt rel => encodeByte 0x2E rel
  | .ble rel => encodeByte 0x2F rel
  | .tsx => [0x30]
  | .ins => [0x31]
  | .pula => [0x32]
  | .pulb => [0x33]
  | .des => [0x34]
  | .txs => [0x35]
  | .psha => [0x36]
  | .pshb => [0x37]
  | .rts => [0x39]
  | .rti => [0x3B]
  | .wai => [0x3E]
  | .swi => [0x3F]
  | .nega => [0x40]
  | .coma => [0x43]
  | .lsra => [0x44]
  | .rora => [0x46]
  | .asra => [0x47]
  | .asla => [0x48]
  | .rola => [0x49]
  | .deca => [0x4A]
  | .inca => [0x4C]
  | .tsta => [0x4D]
  | .clra => [0x4F]
  | .negb => [0x50]
  | .comb => [0x53]
  | .lsrb => [0x54]
  | .rorb => [0x56]
  | .asrb => [0x57]
  | .aslb => [0x58]
  | .rolb => [0x59]
  | .decb => [0x5A]
  | .incb => [0x5C]
  | .tstb => [0x5D]
  | .clrb => [0x5F]
  | .negIdx off => encodeByte 0x60 off
  | .comIdx off => encodeByte 0x63 off
  | .lsrIdx off => encodeByte 0x64 off
  | .rorIdx off => encodeByte 0x66 off
  | .asrIdx off => encodeByte 0x67 off
  | .aslIdx off => encodeByte 0x68 off
  | .rolIdx off => encodeByte 0x69 off
  | .decIdx off => encodeByte 0x6A off
  | .incIdx off => encodeByte 0x6C off
  | .tstIdx off => encodeByte 0x6D off
  | .jmpIdx off => encodeByte 0x6E off
  | .clrIdx off => encodeByte 0x6F off
  | .negExt w => encodeWord 0x70 w
  | .comExt w => encodeWord 0x73 w
  | .lsrExt w => encodeWord 0x74 w
  | .rorExt w => encodeWord 0x76 w
  | .asrExt w => encodeWord 0x77 w
  | .aslExt w => encodeWord 0x78 w
  | .rolExt w => encodeWord 0x79 w
  | .decExt w => encodeWord 0x7A w
  | .incExt w => encodeWord 0x7C w
  | .tstExt w => encodeWord 0x7D w
  | .jmpExt w => encodeWord 0x7E w
  | .clrExt w => encodeWord 0x7F w
  | .subaImm m => encodeByte 0x80 m
  | .cmpaImm m => encodeByte 0x81 m
  | .sbcaImm m => encodeByte 0x82 m
  | .andaImm m => encodeByte 0x84 m
  | .bitaImm m => encodeByte 0x85 m
  | .ldaaImm m => encodeByte 0x86 m
  | .eoraImm m => encodeByte 0x88 m
  | .adcaImm m => encodeByte 0x89 m
  | .oraaImm m => encodeByte 0x8A m
  | .addaImm m => encodeByte 0x8B m
  | .cpxImm w => encodeWord 0x8C w
  | .bsr rel => encodeByte 0x8D rel
  | .ldsImm w => encodeWord 0x8E w
  | .subaDir d => encodeByte 0x90 d
  | .cmpaDir d => encodeByte 0x91 d
  | .sbcaDir d => encodeByte 0x92 d
  | .andaDir d => encodeByte 0x94 d
  | .bitaDir d => encodeByte 0x95 d
  | .ldaaDir d => encodeByte 0x96 d
  | .staaDir d => encodeByte 0x97 d
  | .eoraDir d => encodeByte 0x98 d
  | .adcaDir d => encodeByte 0x99 d
  | .oraaDir d => encodeByte 0x9A d
  | .addaDir d => encodeByte 0x9B d
  | .cpxDir d => encodeByte 0x9C d
  | .ldsDir d => encodeByte 0x9E d
  | .stsDir d => encodeByte 0x9F d
  | .subaIdx off => encodeByte 0xA0 off
  | .cmpaIdx off => encodeByte 0xA1 off
  | .sbcaIdx off => encodeByte 0xA2 off
  | .andaIdx off => encodeByte 0xA4 off
  | .bitaIdx off => encodeByte 0xA5 off
  | .ldaaIdx off => encodeByte 0xA6 off
  | .staaIdx off => encodeByte 0xA7 off
  | .eoraIdx off => encodeByte 0xA8 off
  | .adcaIdx off => encodeByte 0xA9 off
  | .oraaIdx off => encodeByte 0xAA off
  | .addaIdx off => encodeByte 0xAB off
  | .cpxIdx off => encodeByte 0xAC off
  | .jsrIdx off => encodeByte 0xAD off
  | .ldsIdx off => encodeByte 0xAE off
  | .stsIdx off => encodeByte 0xAF off
  | .subaExt w => encodeWord 0xB0 w
  | .cmpaExt w => encodeWord 0xB1 w
  | .sbcaExt w => encodeWord 0xB2 w
  | .andaExt w => encodeWord 0xB4 w
  | .bitaExt w => encodeWord 0xB5 w
  | .ldaaExt w => encodeWord 0xB6 w
  | .staaExt w => encodeWord 0xB7 w
  | .eoraExt w => encodeWord 0xB8 w
  | .adcaExt w => encodeWord 0xB9 w
  | .oraaExt w => encodeWord 0xBA w
  | .addaExt w => encodeWord 0xBB w
  | .cpxExt w => encodeWord 0xBC w
  | .jsrExt w => encodeWord 0xBD w
  | .ldsExt w => encodeWord 0xBE w
  | .stsExt w => encodeWord 0xBF w
  | .subbImm m => encodeByte 0xC0 m
  | .cmpbImm m => encodeByte 0xC1 m
  | .sbcbImm m => encodeByte 0xC2 m
  | .andbImm m => encodeByte 0xC4 m
  | .bitbImm m => encodeByte 0xC5 m
  | .ldabImm m => encodeByte 0xC6 m
  | .eorbImm m => encodeByte 0xC8 m
  | .adcbImm m => encodeByte 0xC9 m
  | .orabImm m => encodeByte 0xCA m
  | .addbImm m => encodeByte 0xCB m
  | .ldxImm w => encodeWord 0xCE w
  | .subbDir d => encodeByte 0xD0 d
  | .cmpbDir d => encodeByte 0xD1 d
  | .sbcbDir d => encodeByte 0xD2 d
  | .andbDir d => encodeByte 0xD4 d
  | .bitbDir d => encodeByte 0xD5 d
  | .ldabDir d => encodeByte 0xD6 d
  | .stabDir d => encodeByte 0xD7 d
  | .eorbDir d => encodeByte 0xD8 d
  | .adcbDir d => encodeByte 0xD9 d
  | .orabDir d => encodeByte 0xDA d
  | .addbDir d => encodeByte 0xDB d
  | .ldxDir d => encodeByte 0xDE d
  | .stxDir d => encodeByte 0xDF d
  | .subbIdx off => encodeByte 0xE0 off
  | .cmpbIdx off => encodeByte 0xE1 off
  | .sbcbIdx off => encodeByte 0xE2 off
  | .andbIdx off => encodeByte 0xE4 off
  | .bitbIdx off => encodeByte 0xE5 off
  | .ldabIdx off => encodeByte 0xE6 off
  | .stabIdx off => encodeByte 0xE7 off
  | .eorbIdx off => encodeByte 0xE8 off
  | .adcbIdx off => encodeByte 0xE9 off
  | .orabIdx off => encodeByte 0xEA off
  | .addbIdx off => encodeByte 0xEB off
  | .ldxIdx off => encodeByte 0xEE off
  | .stxIdx off => encodeByte 0xEF off
  | .subbExt w => encodeWord 0xF0 w
  | .cmpbExt w => encodeWord 0xF1 w
  | .sbcbExt w => encodeWord 0xF2 w
  | .andbExt w => encodeWord 0xF4 w
  | .bitbExt w => encodeWord 0xF5 w
  | .ldabExt w => encodeWord 0xF6 w
  | .stabExt w => encodeWord 0xF7 w
  | .eorbExt w => encodeWord 0xF8 w
  | .adcbExt w => encodeWord 0xF9 w
  | .orabExt w => encodeWord 0xFA w
  | .addbExt w => encodeWord 0xFB w
  | .ldxExt w => encodeWord 0xFE w
  | .stxExt w => encodeWord 0xFF w

/-- The length of an instruction in bytes (R101). -/
def Instr.length (i : Instr) : Nat := (encode i).length

end Sys2Proof
end

