-- ==== Sys2Proof/Config.lean ====
section
/-! DEFINITION. What a board fixes (the `MemoryMap` of R61 and the Boolean parameters of D13 and R534) and the free
values: constants without a body that stand for every draw the spec leaves to chance. -/

namespace Sys2Proof

/-- What one select of the board's address decoder enables (R61).  `base + (a AND keep)` is the cell a memory select
reaches, so that the address lines a chip ignores make it repeat. -/
inductive Target where
  /-- read/write memory -/
  | ram (base keep : Word)
  /-- read-only memory -/
  | rom (base keep : Word)
  /-- register select RS1:RS0 of the PIA number `d` (R421) -/
  | pia (d : Nat) (rs : BitVec 2)
  /-- register select RS of the ACIA number `d` (R451) -/
  | acia (d : Nat) (rs : Bool)
deriving DecidableEq, Repr

/-- One select: it responds to the addresses whose bits under `care` equal `value` (R61, R75: the other lines are
don't-cares). -/
structure Select where
  care : Word
  value : Word
  target : Target
deriving DecidableEq, Repr

/-- The board's address decoding; an address no select responds to is unpopulated (R61, D2). -/
abbrev MemoryMap := List Select

/-- What responds at one address (R61). -/
inductive Region where
  | ram (cell : Word)
  | rom (cell : Word)
  | pia (d : Nat) (rs : BitVec 2)
  | acia (d : Nat) (rs : Bool)
  | unpopulated
deriving DecidableEq, Repr

/-- The board: its address map and the two bus properties the spec leaves to it. -/
structure Board where
  map : MemoryMap
  /-- `clr_reads_first` of R231 and D13: CLR reads its location before it clears it -/
  clrReadsFirst : Bool
  /-- a board whose selects ignore VMA sees the write-back of TST (R534, D8) -/
  tstWritesBack : Bool
deriving DecidableEq, Repr

/-! Free values.  Each is applied to the draw counter of the state, so that two draws are unrelated; nothing can be
proved about any of them, so a theorem about a run holds for every draw. -/

/-- V after DAA, "Not defined" (R177, D12, U1). -/
opaque Config.daaOverflow : Nat → Bool

/-- Whether an IRQ pending at a TAP that clears I waits one instruction more (R147, R379, D11, U10). -/
opaque Config.tapDelay : Nat → Bool

/-- The byte read where no device responds (R62, D5, U6). -/
opaque Config.floatingByte : Nat → Byte

/-- The registers after a reset of the running machine (R491, D1, U2). -/
opaque Config.resetA : Nat → Byte
/-- See `Config.resetA`. -/
opaque Config.resetB : Nat → Byte
/-- See `Config.resetA`. -/
opaque Config.resetX : Nat → Word
/-- See `Config.resetA`. -/
opaque Config.resetSP : Nat → Word
/-- The flags H, N, Z, V, C after a reset of the running machine, as bits 4..0 (R491, D1, U2). -/
opaque Config.resetFlags : Nat → BitVec 5

end Sys2Proof
end

