-- ==== Sys2Proof/Machine/Maps.lean ====
section
/-! DEFINITION. The manual's example address maps (R75) and a board that is memory throughout. -/

namespace Sys2Proof.Machine

/-- The four selects of PIA `d` whose chip responds to the addresses that equal `base` under `care`, with A1 and A0 at RS1
and RS0 (R421, R442). -/
def piaSelects (d : Nat) (care base : Word) : MemoryMap :=
  [ { care := care ||| 3, value := base, target := .pia d 0b00 },
    { care := care ||| 3, value := base ||| 1, target := .pia d 0b01 },
    { care := care ||| 3, value := base ||| 2, target := .pia d 0b10 },
    { care := care ||| 3, value := base ||| 3, target := .pia d 0b11 } ]

/-- RAM 0000 to 007F where A15 = A14 = 0 and ROM C000 to C3FF where A15 = A14 = 1, the other lines don't-cares: the
memories of both example maps (R73, R75). -/
def exampleMemories : MemoryMap :=
  [ { care := 0xC000, value := 0x0000, target := .ram 0x0000 0x007F },
    { care := 0xC000, value := 0xC000, target := .rom 0xC000 0x03FF } ]

/-- The minimum system of R75 (C32: addresses with both A2 and A3 set are unpopulated). -/
def minimumSystemMap : MemoryMap :=
  exampleMemories ++ piaSelects 0 0xC00C 0x4004 ++
    [ { care := 0xC00D, value := 0x4008, target := .acia 0 false },
      { care := 0xC00D, value := 0x4009, target := .acia 0 true } ]

/-- The DMA example of R75 (Table 4-2.2.1-1): ROM C000 to C3FF, RAM 0000 to 007F, PIA 4000 to 4003.  The table gives the
addresses alone; that the lines it does not use are don't-cares, as in the minimum system, is a DESIGN CHOICE (log 44). -/
def dmaExampleMap : MemoryMap := exampleMemories ++ piaSelects 0 0xC000 0x4000

/-- A board that is read/write memory throughout. -/
def flatMap : MemoryMap := [{ care := 0, value := 0, target := .ram 0 0xFFFF }]

end Sys2Proof.Machine
end

