-- ==== Sys2Proof/WellFormed.lean ====
section
/-! DEFINITION. Which instructions and which boards are legal. -/

namespace Sys2Proof

/-- Every instruction is well formed: operands carry their exact width in their type, and operand bytes have no reserved
values (R112). -/
def Instr.wellFormed : Instr → Bool := fun _ => true

/-- A select tests only the address bits it cares about. -/
def Select.wellFormed (s : Select) : Bool := s.value &&& s.care == s.value

/-- No address enables both selects: they disagree on a bit both care about. -/
def Select.disjoint (s t : Select) : Bool := (s.value ^^^ t.value) &&& (s.care &&& t.care) != 0

/-- A map claims no address twice (R61, U8: another map is not a legal argument). -/
def MemoryMap.legal : MemoryMap → Bool
  | [] => true
  | s :: rest => s.wellFormed && rest.all s.disjoint && MemoryMap.legal rest

end Sys2Proof
end

