-- ==== Sys2Proof/Machine/State.lean ====
section
/-! DEFINITION. The state of the machine as plain data: the MPU, its internal interrupt and run state, the memories and
device registers of the board, and the input pins with the events the outside world still has to make. -/

namespace Sys2Proof.Machine

/-- A memory: the cells that differ from `Memory.unlisted`, addresses strictly rising (the canonical form is
`Memory.wf`). -/
abbrev Memory := List Host.Cell

/-- What a cell nothing has written reads as (DESIGN CHOICE, log 2: the spec calls power-on RAM content a draw, U3). -/
def Memory.unlisted : Byte := 0x00

/-- The condition code register: its six flags (R27, R28). -/
structure Ccr where
  h : Bool
  i : Bool
  n : Bool
  z : Bool
  v : Bool
  c : Bool
deriving DecidableEq, Repr

/-- The programmer-visible registers (R20). -/
structure Cpu where
  a : Byte
  b : Byte
  x : Word
  sp : Word
  pc : Word
  ccr : Ccr
deriving DecidableEq, Repr

/-- What the MPU does at the next instruction boundary (R34). -/
inductive RunState where
  | running
  /-- after WAI, registers already stacked (R385) -/
  | waiting
  /-- HALT low (R390) -/
  | halted
  /-- RES low (R492) -/
  | held
deriving DecidableEq, Repr

/-- The MPU's hidden state (R34). -/
structure Control where
  runState : RunState
  /-- a latched IRQ pulse (R367) -/
  irqLatch : Bool
  /-- skip the IRQ test at one boundary (R368) -/
  irqHoldoff : Bool
  /-- skip the NMI and IRQ tests at one boundary (R391) -/
  haltHoldoff : Bool
  /-- bit 0 of the opcode executed just before (R368) -/
  prevOpcodeLsb : Bool
deriving DecidableEq, Repr

/-- Where the board connects a device's interrupt output (R432: the board's wiring). -/
inductive Wire where
  | irq
  | nmi
  | none
deriving DecidableEq, Repr

/-- One side of an MC6820 PIA (R420, R427). -/
structure PiaSide where
  /-- output register -/
  out : Byte
  /-- data direction register, ones are outputs (R423) -/
  ddr : Byte
  /-- control register bits b5..b0 (R427) -/
  cr : BitVec 6
  /-- flag b7 -/
  irq1 : Bool
  /-- flag b6 -/
  irq2 : Bool
  /-- the level the PIA drives on C2 while C2 is an output (R430) -/
  c2 : Bool
  /-- the levels the peripheral puts on the data lines (R444) -/
  pins : Byte
  /-- output lines loaded so heavily that a stored one reads as zero; side A only (R426, U25) -/
  load : Byte
  /-- strobe pulses sent on C2 so far (R439) -/
  strobes : Nat
  /-- C1 went inactive without an E pulse since (R441) -/
  starved1 : Bool
  /-- C2 went inactive without an E pulse since (R441) -/
  starved2 : Bool
  /-- an active transition of C1 waits for the E pulse that sets its flag (R441, U24) -/
  pending1 : Bool
  /-- an active transition of C2 waits for the E pulse that sets its flag (R441, U24) -/
  pending2 : Bool
  /-- where this side's interrupt output goes -/
  wire : Wire
deriving DecidableEq, Repr

/-- One MC6820 PIA and its board parameters. -/
structure Pia where
  sideA : PiaSide
  sideB : PiaSide
  /-- `pia_e_gated_by_vma` (R441) -/
  eGated : Bool
  /-- the PIA's reset input is tied to RES (R435, R495) -/
  resTied : Bool
deriving DecidableEq, Repr

/-- One MC6850 ACIA (R450). -/
structure Acia where
  /-- control register, write-only (R452 to R455) -/
  cr : Byte
  /-- transmit data register, write-only -/
  tdr : Byte
  /-- receive data register, read-only -/
  rdr : Byte
  /-- receive data register full (R457) -/
  rdrf : Bool
  /-- transmit data register empty (R458) -/
  tdrEmpty : Bool
  /-- receiver overrun (R461) -/
  ovrn : Bool
  /-- framing error of the character in `rdr` (R461) -/
  fe : Bool
  /-- parity error of the character in `rdr` (R461) -/
  pe : Bool
  /-- carrier lost, not yet cleared (R460) -/
  dcdFlag : Bool
  /-- a status read has armed the clearing of `dcdFlag` (R460) -/
  dcdArmed : Bool
  /-- level of the CTS-bar input (R459) -/
  ctsHigh : Bool
  /-- level of the DCD-bar input (R460) -/
  dcdHigh : Bool
  /-- the power-on hold (R466) -/
  hold : Bool
  /-- the character being sent by the transmit shift register, if it is busy (R463) -/
  txShift : Option Byte
  /-- the receive shift register: the last character it completed (R450, log 45) -/
  rxShift : Byte
  /-- the receive shift register is assembling a character (R462) -/
  rxBusy : Bool
  /-- where the interrupt output goes -/
  wire : Wire
deriving DecidableEq, Repr

/-- One byte access of another bus master (R77). -/
inductive BusAccess where
  | read (a : Word)
  | write (a : Word) (v : Byte)
deriving DecidableEq, Repr

/-- A bus cycle that another master steals between two accesses of the MPU (R79 b and c, R505): it comes after `gap` more
accesses of the MPU, counted from the steal before it. -/
structure Steal where
  gap : Nat
  access : BusAccess
deriving DecidableEq, Repr

/-- Memories, devices and board: all state outside the MPU (R20, R33). -/
structure System where
  /-- cells of the read/write memories -/
  ram : Memory
  /-- cells of the read-only memories -/
  rom : Memory
  board : Board
  pias : List Pia
  acias : List Acia
  /-- a falling edge of NMI not yet served (R34, R365) -/
  nmiLatch : Bool
  /-- some device holds the NMI pin low (the pin's level, for its edge, R365) -/
  nmiLow : Bool
  /-- the model's own counter of draws: the argument of the free values of Config -/
  draws : Nat
  /-- byte writes left before RES falls inside the instruction being executed (R492, D21); the model's own field -/
  resCut : Option Nat
  /-- cycles another master will steal, in order (R79, R505, log 7); the model's own field -/
  steals : List Steal
deriving DecidableEq, Repr

/-- A control or data line of a PIA: CA1, CA2, CB1 or CB2. -/
inductive PiaLine where
  | ca1 | ca2 | cb1 | cb2
deriving DecidableEq, Repr

/-- What the outside world can do between two instruction boundaries (the environment schedule of 92, R444, R463, R468).
`d` numbers a device; an event of a device the board does not have is nothing. -/
inductive Event where
  /-- other hardware on the wire-ORed IRQ pin drives it low, or lets it go (R34, R381) -/
  | irqLine (low : Bool)
  /-- `IrqPulse` (R367) -/
  | irqPulse
  /-- `IrqPulse` while this step's instruction executes, before it changes I (R367, D15) -/
  | irqDuring
  /-- a falling edge on the NMI pin (R365) -/
  | nmiEdge
  /-- a falling edge on the NMI pin while this step's instruction executes: `nmi_during_swi` if it is SWI (R374) -/
  | nmiDuring
  /-- level of HALT (R390) -/
  | halt (low : Bool)
  /-- level of RES (R372) -/
  | res (low : Bool)
  /-- RES falls inside this step's instruction or sequence, after `n + 1` of its byte writes (R492, D21) -/
  | resDuring (n : Nat)
  /-- level of TSC (R505) -/
  | tsc (high : Bool)
  /-- the board's address decoding changes: vector substitution by priority hardware (R82, R383) -/
  | remap (map : MemoryMap)
  /-- `SetPA` (R444) -/
  | setPA (d : Nat) (v : Byte)
  /-- `SetPB` (R444) -/
  | setPB (d : Nat) (v : Byte)
  /-- which side-A output lines are overloaded (R426) -/
  | loadPA (d : Nat) (v : Byte)
  /-- `Edge(line, dir)` (R444); `missed`: the environment's choice to drop an edge that had no E pulse before it (R441) -/
  | piaEdge (d : Nat) (line : PiaLine) (rising missed : Bool)
  /-- `Reset` of one PIA (R444) -/
  | piaReset (d : Nat)
  /-- a start bit begins a character (R468) -/
  | rxStart (d : Nat)
  /-- `RxChar(c, fe, pe)` (R468) -/
  | rxChar (d : Nat) (c : Byte) (fe pe : Bool)
  /-- the transmit shift register becomes free (R463) -/
  | txReady (d : Nat)
  /-- level of CTS-bar (R459) -/
  | cts (d : Nat) (high : Bool)
  /-- level of DCD-bar (R460) -/
  | dcd (d : Nat) (high : Bool)
  /-- another bus master makes an access, while the MPU has released the bus (R79 a, R83) -/
  | dma (x : BusAccess)
  /-- another bus master will steal a cycle, after the steals that already wait (R79 b and c, R505) -/
  | steal (x : Steal)
deriving DecidableEq, Repr

/-- The input pins as the environment holds them, and what it will still do: `schedule` has one slot a step. -/
structure Env where
  schedule : List (List Event)
  /-- other hardware holds IRQ low -/
  irqExt : Bool
  haltLow : Bool
  resLow : Bool
  tscHigh : Bool
  /-- an NMI edge falls while this step's instruction executes (R374): an event, or a device's edge noted by the fetch -/
  nmiDuring : Bool
  /-- an IRQ pulse falls while this step's instruction executes, before it changes I (R367, D15) -/
  irqDuring : Bool
deriving DecidableEq, Repr

structure State where
  cpu : Cpu
  ctl : Control
  sys : System
  env : Env
deriving DecidableEq, Repr

/-- Reasons to stop with a fault: none.  The MC6800 has no synchronous exception and no bus error, every address may be
read and written, and the treatment `fault` is used nowhere in the spec (R360, 93 part 1). -/
inductive Fault where
deriving DecidableEq, Repr

/-- Reasons to refuse a step. -/
inductive Refusal where
  /-- an arm of `exec` without a meaning; no arm answers it now (safe: nothing runs) -/
  | notModelled (mnemonic : String)
  /-- the model outcome `UndefinedOpcode` of R112 and D10, raised by the fetch of one of the 59 unassigned opcodes (safe:
  the spec defines no behaviour and forbids a proof to pass through it) -/
  | undefinedOpcode (opcode : Byte) (address : Word)
  /-- an environment event asks for a map that claims an address twice, which is not a legal argument (R61, U8); raised
  by the reading of the event (safe: nothing runs) -/
  | illegalMap
deriving DecidableEq, Repr

/-- A PIA side after its reset: all registers zero, C2 an input (R435). -/
def PiaSide.initial (pins : Byte) (wire : Wire) : PiaSide :=
  { out := 0, ddr := 0, cr := 0, irq1 := false, irq2 := false, c2 := true, pins := pins, load := 0, strobes := 0,
    starved1 := false, starved2 := false, pending1 := false, pending2 := false, wire := wire }

/-- A PIA after its reset; undriven A lines are pulled up (R426, R435). -/
def Pia.initial : Pia :=
  { sideA := PiaSide.initial 0xFF .irq, sideB := PiaSide.initial 0x00 .irq, eGated := false, resTied := true }

/-- The nominal power-on state of an ACIA (R466, D20). -/
def Acia.initial : Acia :=
  { cr := 0, tdr := 0, rdr := 0, rdrf := false, tdrEmpty := false, ovrn := false, fe := false, pe := false,
    dcdFlag := false, dcdArmed := false, ctsHigh := false, dcdHigh := false, hold := true, txShift := none,
    rxShift := 0, rxBusy := false, wire := .irq }

/-- The board at reset: the minimum system of R75, its memories empty (log 2, log 3). -/
def System.initial : System :=
  { ram := [], rom := [], board := { map := minimumSystemMap, clrReadsFirst := false, tstWritesBack := false },
    pias := [Pia.initial], acias := [Acia.initial], nmiLatch := false, nmiLow := false, draws := 0, resCut := none,
    steals := [] }

/-- Right after the reset sequence (R490, R491): I = 1, PC holds the restart vector (both its bytes are cells of an empty
ROM, R72, R73), running, no latch and no hold-off set; the registers the spec leaves open hold zero (DESIGN CHOICE,
log 1). -/
def State.reset : State :=
  { cpu := { a := 0, b := 0, x := 0, sp := 0, pc := 0x0000,
             ccr := { h := false, i := true, n := false, z := false, v := false, c := false } },
    ctl := { runState := .running, irqLatch := false, irqHoldoff := false, haltHoldoff := false,
             prevOpcodeLsb := false },
    sys := System.initial,
    env := { schedule := [], irqExt := false, haltLow := false, resLow := false, tscHigh := false,
             nmiDuring := false, irqDuring := false } }

end Sys2Proof.Machine
end

