-- ==== Sys2Proof/Machine/Acia.lean ====
section
/-! DEFINITION. The MC6850 ACIA: its registers as the MPU reads and writes them, and its serial side (R450 to R470). -/

namespace Sys2Proof.Machine

/-- Control bits b1 b0 = 11: the master reset condition (R452, R465). -/
def Acia.inReset (p : Acia) : Bool := p.cr.getLsbD 1 && p.cr.getLsbD 0

/-- The power-on hold or a master reset is in force: no interrupt, flags clear (R464, R465, R466). -/
def Acia.quiet (p : Acia) : Bool := p.hold || p.inReset

/-- Status bit b1 as read: held low without Clear-To-Send (R458). -/
def Acia.tdre (p : Acia) : Bool := p.tdrEmpty && !p.ctsHigh

/-- The interrupt output is low (R464; the gating of DCD by b7 is D19, log 30). -/
def Acia.irqLow (p : Acia) : Bool :=
  !p.quiet && ((p.cr.getLsbD 7 && (p.rdrf || p.dcdFlag)) || (!p.cr.getLsbD 6 && p.cr.getLsbD 5 && p.tdre))

/-- Status bit b2: the latched loss of carrier, or the input level once it is cleared (R460); at power-on the level
(R460 quoting the power-on state); cleared by a master reset (R465). -/
def Acia.dcdBit (p : Acia) : Bool :=
  if p.hold then p.dcdHigh else if p.inReset then false else p.dcdFlag || p.dcdHigh

/-- The status register (R456): b3 copies CTS-bar always (R459); a master reset and the power-on hold clear the others
(R465). -/
def Acia.status (p : Acia) : Byte :=
  let on := !p.quiet
  BitVec.ofBool p.irqLow ++ BitVec.ofBool (on && p.pe) ++ BitVec.ofBool (on && p.ovrn) ++ BitVec.ofBool (on && p.fe) ++
    BitVec.ofBool p.ctsHigh ++ BitVec.ofBool p.dcdBit ++ BitVec.ofBool (on && p.tdre) ++ BitVec.ofBool (on && p.rdrf)

/-- A read of the receive data register: clears RDRF and OVRN, and completes an armed DCD clear (R462, R460). -/
def Acia.readData (p : Acia) : Acia :=
  { p with rdrf := false, ovrn := false, dcdFlag := p.dcdFlag && !p.dcdArmed, dcdArmed := false }

/-- An MPU read of the ACIA (R451): RS = 0 the status register, whose read arms the DCD clear while the flag is set
(R460); RS = 1 the receive data register. -/
def Acia.read (p : Acia) (rs : Bool) : Byte × Acia :=
  if rs then (p.rdr, p.readData) else (p.status, { p with dcdArmed := p.dcdArmed || p.dcdFlag })

/-- A master reset: the flags and both data registers cleared, the power-on hold released, the other six bits stored
(R465, R466).  That it also abandons the characters in the two shift registers is a DESIGN CHOICE (log 45). -/
def Acia.masterReset (p : Acia) (v : Byte) : Acia :=
  { p with cr := v, tdr := 0, rdr := 0, rdrf := false, tdrEmpty := true, ovrn := false, fe := false, pe := false,
           dcdFlag := false, dcdArmed := false, hold := false, txShift := none, rxShift := 0, rxBusy := false }

/-- A write of the control register (R452 to R455, R465): leaving the master reset finds the transmitter empty. -/
def Acia.writeControl (p : Acia) (v : Byte) : Acia :=
  if v.getLsbD 1 && v.getLsbD 0 then p.masterReset v
  else if p.inReset then { p with cr := v, tdrEmpty := true }
  else { p with cr := v }

/-- An MPU write of the ACIA (R451): RS = 0 the control register, RS = 1 the transmit data register, which becomes full
(R463). -/
def Acia.write (p : Acia) (rs : Bool) (v : Byte) : Acia :=
  if rs then { p with tdr := v, tdrEmpty := false } else p.writeControl v

/-- A start bit begins a character in the receive shift register (R462, R468); not while the chip is held (log 33). -/
def Acia.rxStart (p : Acia) : Acia := if p.quiet then p else { p with rxBusy := true }

/-- `RxChar(c, fe, pe)` (R468): the shift register has completed a character (log 45), which reaches a
free RDR, or is dropped with OVRN (R461, D19, log 30). -/
def Acia.rxChar (p : Acia) (c : Byte) (fe pe : Bool) : Acia :=
  if p.quiet then p
  else if p.rdrf then { p with ovrn := true, rxShift := c, rxBusy := false }
  else { p with rdr := c, rdrf := true, fe := fe, pe := pe, rxShift := c, rxBusy := false }

/-- The transmit shift register becomes free: a waiting character moves into it (R463). -/
def Acia.txReady (p : Acia) : Acia :=
  if p.quiet then { p with txShift := none }
  else if p.tdrEmpty then { p with txShift := none }
  else { p with txShift := some p.tdr, tdrEmpty := true }

/-- The CTS-bar input (R459). -/
def Acia.setCts (p : Acia) (high : Bool) : Acia := { p with ctsHigh := high }

/-- The DCD-bar input: its rise sets the flag (R460); not while the chip is held (log 33). -/
def Acia.setDcd (p : Acia) (high : Bool) : Acia :=
  if high && !p.dcdHigh && !p.quiet then { p with dcdHigh := high, dcdFlag := true }
  else { p with dcdHigh := high }

/-- The interrupt output, wired to `w`, is low. -/
def Acia.pulls (p : Acia) (w : Wire) : Bool := p.wire == w && p.irqLow

/-- RTS-bar is high: the power-on hold (R466), or b6 b5 = 10 (R454). -/
def Acia.rtsHigh (p : Acia) : Bool := p.hold || (p.cr.getLsbD 6 && !p.cr.getLsbD 5)

/-- A break is sent on Tx Data: b6 b5 = 11 (R454); none while the power-on hold lasts (DESIGN CHOICE, log 48). -/
def Acia.sendsBreak (p : Acia) : Bool := !p.hold && p.cr.getLsbD 6 && p.cr.getLsbD 5

/-- The clock divide ratio of b1 b0; none is the master reset (R452). -/
def Acia.divideRatio (p : Acia) : Option Nat :=
  match p.cr.getLsbD 1, p.cr.getLsbD 0 with
  | false, false => some 1
  | false, true => some 16
  | true, false => some 64
  | true, true => none

/-- Parity of a character frame (R453). -/
inductive Parity where
  | none
  | even
  | odd
deriving DecidableEq, Repr

/-- A character frame (R453). -/
structure Frame where
  dataBits : Nat
  parity : Parity
  stopBits : Nat
deriving DecidableEq, Repr

/-- The character frame of b4 b3 b2 (R453). -/
def Acia.frame (p : Acia) : Frame :=
  match p.cr.getLsbD 4, p.cr.getLsbD 3, p.cr.getLsbD 2 with
  | false, false, false => { dataBits := 7, parity := .even, stopBits := 2 }
  | false, false, true => { dataBits := 7, parity := .odd, stopBits := 2 }
  | false, true, false => { dataBits := 7, parity := .even, stopBits := 1 }
  | false, true, true => { dataBits := 7, parity := .odd, stopBits := 1 }
  | true, false, false => { dataBits := 8, parity := .none, stopBits := 2 }
  | true, false, true => { dataBits := 8, parity := .none, stopBits := 1 }
  | true, true, false => { dataBits := 8, parity := .even, stopBits := 1 }
  | true, true, true => { dataBits := 8, parity := .odd, stopBits := 1 }

end Sys2Proof.Machine
end

