-- ==== Sys2Proof/Machine/Flags.lean ====
section
/-! DEFINITION. The condition codes: the CCR as a byte, and every result-and-flag function of the instruction families.
A flag a function does not set keeps its value (R28). -/

namespace Sys2Proof.Machine

/-- The byte image `1 1 H I N Z V C` (R27, D3; DESIGN CHOICE of the spec, log 14). -/
def Ccr.toByte (f : Ccr) : Byte :=
  0b11#2 ++ BitVec.ofBool f.h ++ BitVec.ofBool f.i ++ BitVec.ofBool f.n ++ BitVec.ofBool f.z ++ BitVec.ofBool f.v ++
    BitVec.ofBool f.c

/-- The six flags of a byte; bits 7 and 6 are not stored (R27, R147, R330). -/
def Ccr.ofByte (b : Byte) : Ccr :=
  { h := b.getLsbD 5, i := b.getLsbD 4, n := b.getLsbD 3, z := b.getLsbD 2, v := b.getLsbD 1, c := b.getLsbD 0 }

/-- N and Z of an 8-bit result (R28). -/
def Ccr.setNZ (f : Ccr) (r : Byte) : Ccr := { f with n := r.getLsbD 7, z := r == 0 }

/-- N and Z of a 16-bit result (R292). -/
def Ccr.setNZ16 (f : Ccr) (r : Word) : Ccr := { f with n := r.getLsbD 15, z := r == 0 }

/-- What an operation gives: a result and the flags after it. -/
abbrev Alu := Byte × Ccr

/-- `add8(a, m, cin)` (R160). -/
def add8 (a m : Byte) (cin : Bool) (f : Ccr) : Alu :=
  let s := a.toNat + m.toNat + cin.toNat
  let r := BitVec.ofNat 8 s
  (r, { f.setNZ r with
        h := a.toNat % 16 + m.toNat % 16 + cin.toNat > 15
        v := (a.getLsbD 7 && m.getLsbD 7 && !r.getLsbD 7) || (!a.getLsbD 7 && !m.getLsbD 7 && r.getLsbD 7)
        c := s > 255 })

/-- `sub8(a, m, bin)`; C is the borrow (R161). -/
def sub8 (a m : Byte) (bin : Bool) (f : Ccr) : Alu :=
  let d : Int := (a.toNat : Int) - m.toNat - bin.toNat
  let r := BitVec.ofInt 8 d
  (r, { f.setNZ r with
        v := (a.getLsbD 7 && !m.getLsbD 7 && !r.getLsbD 7) || (!a.getLsbD 7 && m.getLsbD 7 && r.getLsbD 7)
        c := d < 0 })

/-- `logicNZ(r)`: N and Z by result, V reset (R200). -/
def logicNZ (r : Byte) (f : Ccr) : Ccr := { f.setNZ r with v := false }

/-- ADD (R164, R165) and ABA (R166). -/
def aluAdd (a m : Byte) (f : Ccr) : Alu := add8 a m false f

/-- ADC (R167, R168). -/
def aluAdc (a m : Byte) (f : Ccr) : Alu := add8 a m f.c f

/-- SUB, CMP, SBA and CBA (R169 to R171, R212 to R214). -/
def aluSub (a m : Byte) (f : Ccr) : Alu := sub8 a m false f

/-- SBC (R172, R173). -/
def aluSbc (a m : Byte) (f : Ccr) : Alu := sub8 a m f.c f

/-- AND and BIT (R201, R202, R210, R211). -/
def aluAnd (a m : Byte) (f : Ccr) : Alu := (a &&& m, logicNZ (a &&& m) f)

/-- ORA (R208, R209). -/
def aluOra (a m : Byte) (f : Ccr) : Alu := (a ||| m, logicNZ (a ||| m) f)

/-- EOR (R206, R207). -/
def aluEor (a m : Byte) (f : Ccr) : Alu := (a ^^^ m, logicNZ (a ^^^ m) f)

/-- LDA, TAB and TBA: the operand itself (R240, R241, R264, R265). -/
def aluLoad (_ m : Byte) (f : Ccr) : Alu := (m, logicNZ m f)

/-- NEG: `sub8(00, m, 0)` (R174 to R176). -/
def aluNeg (m : Byte) (f : Ccr) : Alu := sub8 0 m false f

/-- COM: V reset, C set (R203 to R205). -/
def aluCom (m : Byte) (f : Ccr) : Alu := (~~~m, { logicNZ (~~~m) f with c := true })

/-- TST: as a compare with zero (R215). -/
def aluTst (m : Byte) (f : Ccr) : Alu := (m, { logicNZ m f with c := false })

/-- CLR: N, V and C reset, Z set (R231 to R233). -/
def aluClr (_ : Byte) (f : Ccr) : Alu := (0, { f with n := false, z := true, v := false, c := false })

/-- DEC: V if the operand was 80; C not affected (R234 to R236). -/
def aluDec (m : Byte) (f : Ccr) : Alu := (m - 1, { f.setNZ (m - 1) with v := m == 0x80 })

/-- INC: V if the operand was 7F; C not affected (R237 to R239). -/
def aluInc (m : Byte) (f : Ccr) : Alu := (m + 1, { f.setNZ (m + 1) with v := m == 0x7F })

/-- The flags of a shift with result `r` and new carry `c`: V is N xor C after it (R266). -/
def shifted (r : Byte) (c : Bool) (f : Ccr) : Alu :=
  (r, { f.setNZ r with v := r.getLsbD 7 != c, c := c })

/-- ROL: `m[6:0] : C`, carry `m[7]` (R246 to R249). -/
def aluRol (m : Byte) (f : Ccr) : Alu := shifted (m.extractLsb' 0 7 ++ BitVec.ofBool f.c) (m.getLsbD 7) f

/-- ROR: `C : m[7:1]`, carry `m[0]` (R246, R250 to R252). -/
def aluRor (m : Byte) (f : Ccr) : Alu := shifted (BitVec.ofBool f.c ++ m.extractLsb' 1 7) (m.getLsbD 0) f

/-- ASL: `m[6:0] : 0`, carry `m[7]` (R246, R253 to R255). -/
def aluAsl (m : Byte) (f : Ccr) : Alu := shifted (m.extractLsb' 0 7 ++ 0b0#1) (m.getLsbD 7) f

/-- ASR: `m[7] : m[7:1]`, carry `m[0]` (R246, R256 to R258). -/
def aluAsr (m : Byte) (f : Ccr) : Alu := shifted (m.extractLsb' 7 1 ++ m.extractLsb' 1 7) (m.getLsbD 0) f

/-- LSR: `0 : m[7:1]`, carry `m[0]` (R246, R259 to R261). -/
def aluLsr (m : Byte) (f : Ccr) : Alu := shifted (0b0#1 ++ m.extractLsb' 1 7) (m.getLsbD 0) f

/-- DAA adds 6 to the lower half-byte (R177: `addlo`). -/
def daaLow (a : Byte) (f : Ccr) : Bool := a.toNat % 16 > 9 || f.h

/-- DAA adds 6 to the upper half-byte (R177: `addhi`). -/
def daaHigh (a : Byte) (f : Ccr) : Bool :=
  a.toNat / 16 > 9 || f.c || (a.toNat % 16 > 9 && a.toNat / 16 == 9)

/-- DAA with the draw `v` for its undefined V (R177, R178, D12). -/
def aluDaa (v : Bool) (a : Byte) (f : Ccr) : Alu :=
  let k : Byte := (if daaHigh a f then 0x60 else 0x00) + (if daaLow a f then 0x06 else 0x00)
  (a + k, { f.setNZ (a + k) with v := v, c := f.c || daaHigh a f })

/-- `ovf8(a, b)`: overflow of the 8-bit subtraction (R280). -/
def ovf8 (a b : Byte) : Bool :=
  let d := a - b
  (a.getLsbD 7 && !b.getLsbD 7 && !d.getLsbD 7) || (!a.getLsbD 7 && b.getLsbD 7 && d.getLsbD 7)

/-- The flags of CPX: Z and N of the 16-bit difference, V of the low bytes as printed (R280, D14, log 18). -/
def cpxFlags (x m : Word) (f : Ccr) : Ccr :=
  { f.setNZ16 (x - m) with v := ovf8 (x.extractLsb' 0 8) (m.extractLsb' 0 8) }

/-- The flags of LDX, LDS, STX and STS (R292). -/
def move16Flags (v : Word) (f : Ccr) : Ccr := { f.setNZ16 v with v := false }

/-- The test of a branch (R310 to R325). -/
def condHolds (c : Cond) (f : Ccr) : Bool :=
  match c with
  | .always => true
  | .hi => !(f.c || f.z)
  | .ls => f.c || f.z
  | .cc => !f.c
  | .cs => f.c
  | .ne => !f.z
  | .eq => f.z
  | .vc => !f.v
  | .vs => f.v
  | .pl => !f.n
  | .mi => f.n
  | .ge => !(f.n ^^ f.v)
  | .lt => f.n ^^ f.v
  | .gt => !(f.z || (f.n ^^ f.v))
  | .le => f.z || (f.n ^^ f.v)

end Sys2Proof.Machine
end

