-- ==== Sys2Proof/Machine/Pia.lean ====
section
/-! DEFINITION. The MC6820 PIA: its registers as the MPU reads and writes them, and its peripheral side (R420 to R446). -/

namespace Sys2Proof.Machine

/-- C2 is an output: control bit b5 (R427). -/
def PiaSide.c2Output (p : PiaSide) : Bool := p.cr.getLsbD 5

/-- Handshake mode: b5 b4 b3 = 100 (R430). -/
def PiaSide.handshake (p : PiaSide) : Bool := p.cr.getLsbD 5 && !p.cr.getLsbD 4 && !p.cr.getLsbD 3

/-- Pulse-strobed mode: b5 b4 b3 = 101 (R430). -/
def PiaSide.pulse (p : PiaSide) : Bool := p.cr.getLsbD 5 && !p.cr.getLsbD 4 && p.cr.getLsbD 3

/-- The output register, not the direction register, is at the shared address: b2 (R421). -/
def PiaSide.outputSelected (p : PiaSide) : Bool := p.cr.getLsbD 2

/-- The interrupt output is low (R432). -/
def PiaSide.irqLow (p : PiaSide) : Bool :=
  (p.irq1 && p.cr.getLsbD 0) || (p.irq2 && p.cr.getLsbD 3 && !p.cr.getLsbD 5)

/-- What reading output register A returns: the pin levels; a driven pin shows the stored bit unless it is overloaded
(R426). -/
def PiaSide.levelsA (p : PiaSide) : Byte := (p.ddr &&& p.out &&& ~~~p.load) ||| (~~~p.ddr &&& p.pins)

/-- What reading output register B returns: the register for outputs, the pins for inputs (R425). -/
def PiaSide.levelsB (p : PiaSide) : Byte := (p.ddr &&& p.out) ||| (~~~p.ddr &&& p.pins)

/-- What reading the control register returns: `b7 : b6 : CR[5:0]`, b6 reading 0 while C2 is an output (R434, R430,
D18, log 25). -/
def PiaSide.control (p : PiaSide) : Byte :=
  BitVec.ofBool p.irq1 ++ BitVec.ofBool (p.irq2 && !p.c2Output) ++ p.cr

/-- Both flags of the side cleared: the effect of reading its output register (R431). -/
def PiaSide.clearFlags (p : PiaSide) : PiaSide := { p with irq1 := false, irq2 := false }

/-- The strobe of a mode that has one: C2 goes low until its restoring edge (R437, R438), or low and back high (R439). -/
def PiaSide.strobe (p : PiaSide) : PiaSide :=
  if p.handshake then { p with c2 := false }
  else if p.pulse then { p with c2 := true, strobes := p.strobes + 1 }
  else p

/-- A write of the control register (R434): bits 7 and 6 are ignored; set/reset mode makes C2 follow b3 (R430); entering
a strobe mode changes no level (R440) but that C2 is high when it was an input (D18, log 26). -/
def PiaSide.writeControl (p : PiaSide) (v : Byte) : PiaSide :=
  let cr : BitVec 6 := v.extractLsb' 0 6
  let c2 := if cr.getLsbD 5 && cr.getLsbD 4 then cr.getLsbD 3
            else if cr.getLsbD 5 && !p.c2Output then true
            else p.c2
  { p with cr := cr, c2 := c2 }

/-- A write at the shared address: the direction register while b2 = 0 (R423), else the output register (R424). -/
def PiaSide.writeData (p : PiaSide) (v : Byte) : PiaSide :=
  if p.outputSelected then { p with out := v } else { p with ddr := v }

/-- RS1 selects side B, RS0 the control register (R421). -/
def piaSelectsB (rs : BitVec 2) : Bool := rs.getLsbD 1

/-- See `piaSelectsB`. -/
def piaSelectsControl (rs : BitVec 2) : Bool := rs.getLsbD 0

/-- An MPU read of the PIA: the byte, and the PIA after it.  Only a read of an output register has an effect: it clears
the side's flags (R431), and on side A it strobes CA2 (R437, R439). -/
def Pia.read (p : Pia) (rs : BitVec 2) : Byte × Pia :=
  if piaSelectsB rs then
    if piaSelectsControl rs then (p.sideB.control, p)
    else if p.sideB.outputSelected then (p.sideB.levelsB, { p with sideB := p.sideB.clearFlags })
    else (p.sideB.ddr, p)
  else
    if piaSelectsControl rs then (p.sideA.control, p)
    else if p.sideA.outputSelected then (p.sideA.levelsA, { p with sideA := p.sideA.clearFlags.strobe })
    else (p.sideA.ddr, p)

/-- An MPU write of the PIA (R423, R424, R434); a write of output register B strobes CB2 (R438, R439). -/
def Pia.write (p : Pia) (rs : BitVec 2) (v : Byte) : Pia :=
  if piaSelectsB rs then
    if piaSelectsControl rs then { p with sideB := p.sideB.writeControl v }
    else if p.sideB.outputSelected then { p with sideB := (p.sideB.writeData v).strobe }
    else { p with sideB := p.sideB.writeData v }
  else
    if piaSelectsControl rs then { p with sideA := p.sideA.writeControl v }
    else { p with sideA := p.sideA.writeData v }

/-- A transition of C1 (R428).  The active one sets b7 and, in handshake mode, restores C2 (R437, R438).  `starve` says that
no E pulse reaches the PIA now: then an inactive edge leaves the next one starved, and the active one waits for an E pulse
(U24) or, if it is starved and `gone`, the environment's choice, is dropped (R441, log 27). -/
def PiaSide.edge1 (p : PiaSide) (rising gone starve : Bool) : PiaSide :=
  if rising == p.cr.getLsbD 1 then
    if !starve then { p with irq1 := true, c2 := p.c2 || p.handshake }
    else if gone && p.starved1 then p
    else { p with pending1 := true }
  else { p with starved1 := starve }

/-- A transition of C2: while C2 is an input, the active one sets b6 (R429), as for C1; while it is an output, nothing
(R430). -/
def PiaSide.edge2 (p : PiaSide) (rising gone starve : Bool) : PiaSide :=
  if p.c2Output then p
  else if rising == p.cr.getLsbD 4 then
    if !starve then { p with irq2 := true }
    else if gone && p.starved2 then p
    else { p with pending2 := true }
  else { p with starved2 := starve }

/-- A transition of one control line of the PIA (R444). -/
def Pia.edge (p : Pia) (line : PiaLine) (rising gone starve : Bool) : Pia :=
  match line with
  | .ca1 => { p with sideA := p.sideA.edge1 rising gone (p.eGated && starve) }
  | .ca2 => { p with sideA := p.sideA.edge2 rising gone (p.eGated && starve) }
  | .cb1 => { p with sideB := p.sideB.edge1 rising gone (p.eGated && starve) }
  | .cb2 => { p with sideB := p.sideB.edge2 rising gone (p.eGated && starve) }

/-- An E pulse reaches the side: the transitions that waited for it set their flags (R441, U24), C1's with the restore of
C2, but C2's sets none once C2 is an output (R430, D18). -/
def PiaSide.pulseE (p : PiaSide) : PiaSide :=
  { p with irq1 := p.irq1 || p.pending1, irq2 := p.irq2 || (p.pending2 && !p.c2Output),
           c2 := p.c2 || (p.pending1 && p.handshake), starved1 := false, starved2 := false, pending1 := false,
           pending2 := false }

/-- An E pulse reaches the PIA (R441). -/
def Pia.pulseE (p : Pia) : Pia := { p with sideA := p.sideA.pulseE, sideB := p.sideB.pulseE }

/-- RES zeroes the registers and flags of a side; what the peripheral puts on its pins stays (R435). -/
def PiaSide.reset (p : PiaSide) : PiaSide :=
  { p with out := 0, ddr := 0, cr := 0, irq1 := false, irq2 := false, pending1 := false, pending2 := false }

/-- RES at the PIA (R435). -/
def Pia.reset (p : Pia) : Pia := { p with sideA := p.sideA.reset, sideB := p.sideB.reset }

/-- RES low, at a PIA whose reset input the board ties to it or not (R435, R495). -/
def Pia.resPin (p : Pia) : Pia := if p.resTied then p.reset else p

/-- Some interrupt output of the PIA that the board wires to `w` is low (R432). -/
def Pia.pulls (p : Pia) (w : Wire) : Bool :=
  (p.sideA.wire == w && p.sideA.irqLow) || (p.sideB.wire == w && p.sideB.irqLow)

end Sys2Proof.Machine
end

