-- ==== Sys2Proof/Machine/Ops.lean ====
section
/-! DEFINITION. The named operations over memory, bus, registers and stack, taking an interrupt and returning from one. -/

namespace Sys2Proof.Machine

/-! ### Memories -/

/-- The canonical form of a memory: addresses of the 65,536 locations, strictly rising, and no cell that holds what an
unlisted one reads as. -/
def Memory.wf (m : Memory) : Bool :=
  decide (m.Pairwise fun p q => p.1 < q.1) && m.all fun p => decide (p.1 < 65536) && p.2 != Memory.unlisted

/-- The byte of a cell. -/
def Memory.read (m : Memory) (a : Word) : Byte :=
  match m with
  | [] => Memory.unlisted
  | (k, b) :: rest => if k = a.toNat then b else Memory.read rest a

/-- Put a cell before the cells of higher address, unless it holds what an unlisted one reads as. -/
def Memory.cons (k : Nat) (v : Byte) (m : Memory) : Memory :=
  if v = Memory.unlisted then m else (k, v) :: m

/-- Store a byte in a cell, keeping the canonical form. -/
def Memory.write (m : Memory) (a : Word) (v : Byte) : Memory :=
  match m with
  | [] => Memory.cons a.toNat v []
  | (k, b) :: rest =>
    if a.toNat < k then Memory.cons a.toNat v ((k, b) :: rest)
    else if a.toNat = k then Memory.cons k v rest
    else (k, b) :: Memory.write rest a v

/-! ### The bus -/

/-- An address enables a select. -/
def selects (a : Word) (s : Select) : Bool := a &&& s.care == s.value

/-- What a select makes of an address it responds to. -/
def targetRegion (t : Target) (a : Word) : Region :=
  match t with
  | .ram base keep => .ram (base + (a &&& keep))
  | .rom base keep => .rom (base + (a &&& keep))
  | .pia d rs => .pia d rs
  | .acia d rs => .acia d rs

/-- The region of an address (R61): a legal map has at most one select that responds. -/
def regionOf (map : MemoryMap) (a : Word) : Region :=
  match map.find? (selects a) with
  | some s => targetRegion s.target a
  | none => .unpopulated

/-- The region of an address on the board. -/
def System.region (y : System) (a : Word) : Region := regionOf y.board.map a

/-- The memory cell an address reaches: its byte, or none where a device or nothing responds. -/
def System.cell (y : System) (a : Word) : Option Byte :=
  match y.region a with
  | .ram c => some (y.ram.read c)
  | .rom c => some (y.rom.read c)
  | .pia _ _ => none
  | .acia _ _ => none
  | .unpopulated => none

/-- Some device output wired to `w` is low (R381, R432, R464). -/
def System.devicesPull (y : System) (w : Wire) : Bool :=
  y.pias.any (·.pulls w) || y.acias.any (·.pulls w)

/-- The NMI pin after a change of a device: a falling edge sets the latch (R365, log 38). -/
def System.noteNmi (y : System) : System :=
  { y with nmiLatch := y.nmiLatch || (y.devicesPull .nmi && !y.nmiLow), nmiLow := y.devicesPull .nmi }

/-- RES has cut the instruction short: no further access takes place (R492, D21, log 9). -/
def System.cut (y : System) : Bool := y.resCut == some 0

/-- The byte an address would read as, and the system after the read (R62). -/
def System.readUncut (y : System) (a : Word) : Byte × System :=
  match y.region a with
  | .ram c => (y.ram.read c, y)
  | .rom c => (y.rom.read c, y)
  | .pia d rs =>
    match y.pias[d]? with
    | some p => ((p.read rs).1, { y with pias := y.pias.set d (p.read rs).2 }.noteNmi)
    | none => (Config.floatingByte y.draws, { y with draws := y.draws + 1 })
  | .acia d rs =>
    match y.acias[d]? with
    | some p => ((p.read rs).1, { y with acias := y.acias.set d (p.read rs).2 }.noteNmi)
    | none => (Config.floatingByte y.draws, { y with draws := y.draws + 1 })
  | .unpopulated => (Config.floatingByte y.draws, { y with draws := y.draws + 1 })

/-- The store of one byte by the region of its address (R63): ROM and nothing are left as they are. -/
def System.store (y : System) (a : Word) (v : Byte) : System :=
  match y.region a with
  | .ram c => { y with ram := y.ram.write c v }
  | .rom _ => y
  | .pia d rs =>
    match y.pias[d]? with
    | some p => { y with pias := y.pias.set d (p.write rs v) }.noteNmi
    | none => y
  | .acia d rs =>
    match y.acias[d]? with
    | some p => { y with acias := y.acias.set d (p.write rs v) }.noteNmi
    | none => y
  | .unpopulated => y

/-- An access of another bus master (R77): it reaches memories and devices as the MPU's do. -/
def System.access (y : System) (x : BusAccess) : System :=
  match x with
  | .read a => (y.readUncut a).2
  | .write a v => y.store a v

/-- The steals at the head of `l` that wait for no further access of the MPU are made; the next one waits for one access
less. -/
def System.grantSteals (y : System) (l : List Steal) : System :=
  match l with
  | [] => { y with steals := [] }
  | ⟨0, x⟩ :: rest => (y.access x).grantSteals rest
  | ⟨n + 1, x⟩ :: rest => { y with steals := ⟨n, x⟩ :: rest }

/-- What another master does on the bus before the next access of the MPU (R79 b and c, R505). -/
def System.grant (y : System) : System := y.grantSteals y.steals

/-- `MemRead(a, 1)` (R62): the byte, with the device's side effects; a free byte where nothing responds. -/
def System.read (y : System) (a : Word) : Byte × System :=
  if y.cut then ((y.readUncut a).1, y) else y.grant.readUncut a

/-- `MemWrite(a, 1, v)` (R63), unless RES has cut the instruction short. -/
def System.write (y : System) (a : Word) (v : Byte) : System :=
  if y.cut then y else { y.grant.store a v with resCut := y.resCut.map (· - 1) }

/-- `MemRead(a, 2)`: the lower address first and more significant (R64). -/
def System.read16 (y : System) (a : Word) : Word × System :=
  let hi := y.read a
  let lo := hi.2.read (a + 1)
  (joinBytes hi.1 lo.1, lo.2)

/-- `MemWrite(a, 2, v)`: the high byte first, at the lower address (R64). -/
def System.write16 (y : System) (a : Word) (v : Word) : System :=
  (y.write a (highByte v)).write (a + 1) (lowByte v)

/-- A fresh draw: the argument of a free value, and the system with the counter moved on. -/
def System.draw (y : System) : Nat × System := (y.draws, { y with draws := y.draws + 1 })

/-! ### The state's view of bus and registers -/

/-- `MemRead(a, 1)` by the MPU. -/
def State.read (s : State) (a : Word) : Byte × State :=
  ((s.sys.read a).1, { s with sys := (s.sys.read a).2 })

/-- `MemWrite(a, 1, v)` by the MPU. -/
def State.write (s : State) (a : Word) (v : Byte) : State := { s with sys := s.sys.write a v }

/-- `MemRead(a, 2)` by the MPU. -/
def State.read16 (s : State) (a : Word) : Word × State :=
  ((s.sys.read16 a).1, { s with sys := (s.sys.read16 a).2 })

/-- `MemWrite(a, 2, v)` by the MPU. -/
def State.write16 (s : State) (a : Word) (v : Word) : State := { s with sys := s.sys.write16 a v }

/-- The IRQ pin is low: other hardware or a device wired to it (R34, R381). -/
def State.irqLine (s : State) : Bool := s.env.irqExt || s.sys.devicesPull .irq

/-- `ACC[r]` (R8). -/
def Cpu.acc (p : Cpu) (r : Acc) : Byte :=
  match r with
  | .a => p.a
  | .b => p.b

/-- `ACC[r] <- v` (R8). -/
def Cpu.setAcc (p : Cpu) (r : Acc) (v : Byte) : Cpu :=
  match r with
  | .a => { p with a := v }
  | .b => { p with b := v }

/-- Replace the registers. -/
def State.setCpu (s : State) (p : Cpu) : State := { s with cpu := p }

/-- The bytes of an instruction have been read: PC holds the address of the next one (R25), and bit 0 of the opcode is
kept for a CLI that follows (R368). -/
def State.advance (s : State) (opcode : Byte) (length : Word) : State :=
  { s with cpu := { s.cpu with pc := s.cpu.pc + length }
           ctl := { s.ctl with prevOpcodeLsb := opcode.getLsbD 0 } }

/-- Replace the flags. -/
def State.setCcr (s : State) (f : Ccr) : State := { s with cpu := { s.cpu with ccr := f } }

/-- `pc <- target`. -/
def State.jump (s : State) (target : Word) : State := { s with cpu := { s.cpu with pc := target } }

/-! ### The stack (R30 to R32, R66) -/

/-- `push8(v)`: store at SP, then SP is decremented (R31). -/
def State.push8 (s : State) (v : Byte) : State :=
  { s with cpu := { s.cpu with sp := s.cpu.sp - 1 }, sys := s.sys.write s.cpu.sp v }

/-- `pull8()`: SP is incremented, then the byte is read (R32). -/
def State.pull8 (s : State) : Byte × State :=
  let r := s.sys.read (s.cpu.sp + 1)
  (r.1, { s with cpu := { s.cpu with sp := s.cpu.sp + 1 }, sys := r.2 })

/-- A 16-bit register is pushed low byte first (R66). -/
def State.push16 (s : State) (v : Word) : State := (s.push8 (lowByte v)).push8 (highByte v)

/-- and pulled high byte first (R66). -/
def State.pull16 (s : State) : Word × State :=
  let hi := s.pull8
  let lo := hi.2.pull8
  (joinBytes hi.1 lo.1, lo.2)

/-! ### Taking an interrupt and returning from one -/

/-- `StackRegisters(ret)`: PC, X, A, B and CCR in this order (R361, D6, log 15). -/
def State.stackRegisters (s : State) (ret : Word) : State :=
  ((((s.push16 ret).push16 s.cpu.x).push8 s.cpu.a).push8 s.cpu.b).push8 s.cpu.ccr.toByte

/-- The vectors (R72). -/
def irqVector : Word := 0xFFF8
/-- See `irqVector`. -/
def swiVector : Word := 0xFFFA
/-- See `irqVector`. -/
def nmiVector : Word := 0xFFFC
/-- See `irqVector`. -/
def resVector : Word := 0xFFFE

/-- The common end of the four vectored sequences: I is set, the IRQ latch and the hold-off history are cleared, and PC
comes from the vector, high byte first (R369 to R371, R386, R387, R490, D16). -/
def State.enterVector (s : State) (vector : Word) : State :=
  let v := s.sys.read16 vector
  { s with cpu := { s.cpu with pc := v.1, ccr := { s.cpu.ccr with i := true } }
           ctl := { s.ctl with irqLatch := false, prevOpcodeLsb := false }
           sys := v.2 }

/-- The NMI latch is cleared (R370). -/
def State.clearNmi (s : State) : State := { s with sys := { s.sys with nmiLatch := false } }

/-- The NMI latch is put back. -/
def State.restoreNmi (s : State) (latched : Bool) : State := { s with sys := { s.sys with nmiLatch := latched } }

/-- Taking an interrupt (R361, R369 to R371): the registers are stacked with `ret` as the return address, then the vector is
selected (R374).  Without an NMI it is `vector`, and an older latched edge stays; with one, given as `nmi` or made by a
device on the NMI pin while the frame was written, it is `withNmi` and the NMI is consumed. -/
def State.takeInterrupt (s : State) (ret vector withNmi : Word) (nmi : Bool) : State :=
  let t := s.clearNmi.stackRegisters ret
  if nmi || t.sys.nmiLatch then t.clearNmi.enterVector withNmi
  else (t.restoreNmi s.sys.nmiLatch).enterVector vector

/-- Returning from an interrupt: CCR, B, A, X and PC are pulled (R330, R376). -/
def State.returnFromInterrupt (s : State) : State :=
  let ccr := s.pull8
  let b := ccr.2.pull8
  let a := b.2.pull8
  let x := a.2.pull16
  let pc := x.2.pull16
  pc.2.setCpu { pc.2.cpu with a := a.1, b := b.1, x := x.1, pc := pc.1, ccr := Ccr.ofByte ccr.1 }

end Sys2Proof.Machine
end

