-- ==== Sys2Proof/Machine/Operands.lean ====
section
/-! DEFINITION. Every operand form of the addressing modes (R104 to R110), and the shapes the instruction families apply
to their operands. -/

namespace Sys2Proof.Machine

/-- The effective address (R106 to R108); indexed and direct addresses are zero-extended, and X + offset wraps (D4). -/
def Cpu.ea (p : Cpu) (e : Ea) : Word :=
  match e with
  | .dir d => zext16 d
  | .idx off => p.x + zext16 off
  | .ext w => w

/-- `opnd`: the immediate byte, or the byte at the effective address (R110). -/
def State.load8 (s : State) (o : Operand8) : Byte × State :=
  match o with
  | .imm m => (m, s)
  | .mem e => s.read (s.cpu.ea e)

/-- `opnd16`: the immediate bytes, or the two bytes at the effective address (R110, R279). -/
def State.load16 (s : State) (o : Operand16) : Word × State :=
  match o with
  | .imm w => (w, s)
  | .mem e => s.read16 (s.cpu.ea e)

/-- `ACC[r], flags <- f(ACC[r], opnd)`: the dual-operand instructions with a destination (R110). -/
def State.accOp (s : State) (f : Byte → Byte → Ccr → Alu) (r : Acc) (o : Operand8) : State :=
  let m := s.load8 o
  let q := f (s.cpu.acc r) m.1 s.cpu.ccr
  m.2.setCpu ({ s.cpu with ccr := q.2 }.setAcc r q.1)

/-- `flags <- f(ACC[r], opnd)`, the result discarded: BIT and CMP (R210 to R213). -/
def State.accTest (s : State) (f : Byte → Byte → Ccr → Alu) (r : Acc) (o : Operand8) : State :=
  let m := s.load8 o
  m.2.setCcr (f (s.cpu.acc r) m.1 s.cpu.ccr).2

/-- The accumulator form of a single-operand operation (R230). -/
def State.accUnary (s : State) (f : Byte → Ccr → Alu) (r : Acc) : State :=
  let q := f (s.cpu.acc r) s.cpu.ccr
  s.setCpu ({ s.cpu with ccr := q.2 }.setAcc r q.1)

/-- The memory form: one read, then one write of the same address (R230). -/
def State.memUnary (s : State) (f : Byte → Ccr → Alu) (e : Ea) : State :=
  let m := s.read (s.cpu.ea e)
  let q := f m.1 s.cpu.ccr
  (m.2.write (s.cpu.ea e) q.1).setCcr q.2

/-- CLR on memory: the write alone, after a discarded read on a board whose parameter says so (R231, D13). -/
def State.memClear (s : State) (e : Ea) : State :=
  let a := s.cpu.ea e
  let t := if s.sys.board.clrReadsFirst then (s.read a).2 else s
  (t.write a 0x00).setCcr (aluClr 0 s.cpu.ccr).2

/-- TST on memory: the read alone (R216); on a board that ignores VMA the byte is written back (R534, D8). -/
def State.memTest (s : State) (e : Ea) : State :=
  let m := s.read (s.cpu.ea e)
  let t := if s.sys.board.tstWritesBack then m.2.write (s.cpu.ea e) m.1 else m.2
  t.setCcr (aluTst m.1 s.cpu.ccr).2

/-- STA: the accumulator is stored, N and Z by its value (R262, R263). -/
def State.storeAcc (s : State) (r : Acc) (e : Ea) : State :=
  (s.write (s.cpu.ea e) (s.cpu.acc r)).setCcr (logicNZ (s.cpu.acc r) s.cpu.ccr)

/-- STX and STS: a 16-bit register is stored, high byte first (R279, R287, R288). -/
def State.storeWord (s : State) (v : Word) (e : Ea) : State :=
  (s.write16 (s.cpu.ea e) v).setCcr (move16Flags v s.cpu.ccr)

/-- A branch, from the address of the next instruction (R109, R310). -/
def State.branch (s : State) (c : Cond) (rel : Byte) : State :=
  if condHolds c s.cpu.ccr then s.jump (s.cpu.pc + sext16 rel) else s

/-- A call: the address of the next instruction is pushed (R326, R328). -/
def State.call (s : State) (target : Word) : State := (s.push16 s.cpu.pc).jump target

end Sys2Proof.Machine
end

