-- ==== Sys2Proof/Machine/Environment.lean ====
section
/-! DEFINITION. What the outside world does between instruction boundaries (the environment schedule of
92_eei_decisions.md; R79, R83, R365, R367, R444, R463, R468). -/

namespace Sys2Proof.Machine

/-- Another master may use the bus: the MPU is halted, waiting or three-stated (R79, R83, R505); with TSC high even while
RES is low (DESIGN CHOICE, log 46). -/
def State.busReleased (s : State) : Bool :=
  s.env.tscHigh || s.ctl.runState == .halted || s.ctl.runState == .waiting

/-- No E pulse reaches a PIA whose E is gated by VMA (R441). -/
def State.starvesE (s : State) : Bool := s.ctl.runState == .halted || s.ctl.runState == .waiting

/-- Change one PIA; a device the board does not have changes nothing. -/
def State.onPia (s : State) (d : Nat) (f : Pia → Pia) : State :=
  match s.sys.pias[d]? with
  | some p => { s with sys := { s.sys with pias := s.sys.pias.set d (f p) }.noteNmi }
  | none => s

/-- Change one ACIA. -/
def State.onAcia (s : State) (d : Nat) (f : Acia → Acia) : State :=
  match s.sys.acias[d]? with
  | some p => { s with sys := { s.sys with acias := s.sys.acias.set d (f p) }.noteNmi }
  | none => s

/-- RES is low: the MPU is held, a latched NMI is forgotten (R372, D17), and the PIAs tied to RES are reset (R495). -/
def State.hold (s : State) : State :=
  { s with ctl := { s.ctl with runState := .held }
           sys := { { s.sys with pias := s.sys.pias.map Pia.resPin }.noteNmi with
                    nmiLatch := false } }

/-- RES changes level; the devices it held are still reset at the moment it rises (R372, R492). -/
def State.setRes (s : State) (low : Bool) : State :=
  if low || s.env.resLow then { s.hold with env := { s.env with resLow := low } } else s

/-- `IrqPulse`: latched only while I = 0 (R367). -/
def State.irqPulse (s : State) : State :=
  { s with ctl := { s.ctl with irqLatch := s.ctl.irqLatch || !s.cpu.ccr.i } }

/-- The IRQ pulse of this step, if there is one, arrives: latched only while I = 0 (R367). -/
def State.pulseDuring (s : State) : State :=
  { s with ctl := { s.ctl with irqLatch := s.ctl.irqLatch || (s.env.irqDuring && !s.cpu.ccr.i) }
           env := { s.env with irqDuring := false } }

/-- One event. -/
def State.event (s : State) (e : Event) : Except Refusal State :=
  match e with
  | .irqLine low => .ok { s with env := { s.env with irqExt := low } }
  | .irqPulse => .ok s.irqPulse
  | .irqDuring => .ok { s with env := { s.env with irqDuring := true } }
  | .nmiEdge => .ok { s with sys := { s.sys with nmiLatch := true } }
  | .nmiDuring => .ok { s with env := { s.env with nmiDuring := true } }
  | .halt low => .ok { s with env := { s.env with haltLow := low } }
  | .res low => .ok (s.setRes low)
  | .resDuring n => .ok { s with sys := { s.sys with resCut := some (n + 1) } }
  | .tsc high => .ok { s with env := { s.env with tscHigh := high } }
  | .remap map =>
    if map.legal then .ok { s with sys := { s.sys with board := { s.sys.board with map := map } } }
    else .error .illegalMap
  | .setPA d v => .ok (s.onPia d fun p => { p with sideA := { p.sideA with pins := v } })
  | .setPB d v => .ok (s.onPia d fun p => { p with sideB := { p.sideB with pins := v } })
  | .loadPA d v => .ok (s.onPia d fun p => { p with sideA := { p.sideA with load := v } })
  | .piaEdge d line rising missed => .ok (s.onPia d fun p => p.edge line rising missed s.starvesE)
  | .piaReset d => .ok (s.onPia d Pia.reset)
  | .rxStart d => .ok (s.onAcia d Acia.rxStart)
  | .rxChar d c fe pe => .ok (s.onAcia d fun p => p.rxChar c fe pe)
  | .txReady d => .ok (s.onAcia d Acia.txReady)
  | .cts d high => .ok (s.onAcia d fun p => p.setCts high)
  | .dcd d high => .ok (s.onAcia d fun p => p.setDcd high)
  | .dma x => .ok (if s.busReleased then { s with sys := s.sys.access x } else s)
  | .steal x => .ok { s with sys := { s.sys with steals := s.sys.steals ++ [x] } }

/-- The events of a slot, in their order. -/
def State.events (s : State) (es : List Event) : Except Refusal State :=
  match es with
  | [] => .ok s
  | e :: rest =>
    match s.event e with
    | .ok t => State.events t rest
    | .error r => .error r

/-- The environment's turn before a boundary: the next slot of its schedule. -/
def State.pollEnvironment (s : State) : Except Refusal State :=
  match s.env.schedule with
  | [] => .ok s
  | slot :: rest => { s with env := { s.env with schedule := rest } }.events slot

end Sys2Proof.Machine
end

