-- ==== Sys2Proof/Machine/Boundary.lean ====
section
/-! DEFINITION. The instruction boundary: reset, halt, the interrupt tests and sequences, the wait state (R362 to R393,
R490 to R493). -/

namespace Sys2Proof.Machine

/-- What a boundary decides: the step is over, or an instruction is to be fetched and executed. -/
inductive Decision where
  | over (s : State)
  | execute (s : State)
deriving DecidableEq, Repr

/-- E pulses reach every PIA (R441); a flag that one sets may pull the NMI pin. -/
def State.pulseE (s : State) : State :=
  { s with sys := { s.sys with pias := s.sys.pias.map Pia.pulseE }.noteNmi }

/-- The NMI sequence: the address about to be fetched is stacked, the latch consumed (R370). -/
def State.nmiSequence (s : State) : State := s.takeInterrupt s.cpu.pc nmiVector nmiVector true

/-- The IRQ sequence (R369); an NMI that a device makes while the frame is written takes it over (R374 a). -/
def State.irqSequence (s : State) : State := s.takeInterrupt s.cpu.pc irqVector nmiVector false

/-- The flags after a reset: I set, the others free (R491, D1). -/
def resetFlags (n : Nat) : Ccr :=
  let f := Config.resetFlags n
  { h := f.getLsbD 4, i := true, n := f.getLsbD 3, z := f.getLsbD 2, v := f.getLsbD 1, c := f.getLsbD 0 }

/-- The reset sequence: nothing is stacked, the registers the manual leaves open are drawn, PC comes from the restart
vector; a machine whose HALT is low halts at once (R490, R491, R493).  The vector reads bring E pulses (R441); an NMI edge
a PIA makes at them is forgotten with the latch (DESIGN CHOICE, log 27). -/
def State.resetSequence (s : State) : State :=
  let n := s.sys.draw.1
  let t : State :=
    { s with cpu := { a := Config.resetA n, b := Config.resetB n, x := Config.resetX n, sp := Config.resetSP n,
                      pc := s.cpu.pc, ccr := resetFlags n }
             ctl := { runState := if s.env.haltLow then .halted else .running, irqLatch := false,
                      irqHoldoff := false, haltHoldoff := false, prevOpcodeLsb := false }
             sys := s.sys.draw.2 }
  t.pulseE.clearNmi.enterVector resVector

/-- An IRQ is present: the line is low or a pulse is latched (R366). -/
def State.irqPresent (s : State) : Bool := s.irqLine || s.ctl.irqLatch

/-- The MPU leaves the wait state: it uses the bus again, so that E pulses come again (R386, R387, R441). -/
def State.leaveWait (s : State) : State := { s with ctl := { s.ctl with runState := .running } }.pulseE

/-- The wait state ends with an NMI, or with an IRQ while I = 0; the registers are already stacked (R386 to R388).  The E
pulses of the exit come before `nmi_latch <- false`, so that an NMI edge a PIA makes at them is consumed with the NMI that is
served (DESIGN CHOICE, log 27). -/
def State.waitBoundary (s : State) : State :=
  let t := s.leaveWait
  if s.sys.nmiLatch then t.clearNmi.enterVector nmiVector
  else if !s.cpu.ccr.i && s.irqPresent then t.enterVector irqVector
  else s

/-- The NMI test (R364): not at the boundary after a halt (R391). -/
def State.takesNmi (s : State) : Bool := s.sys.nmiLatch && !s.ctl.haltHoldoff

/-- The IRQ test (R366): I = 0, and no hold-off (R368, R391). -/
def State.takesIrq (s : State) : Bool :=
  !s.cpu.ccr.i && s.irqPresent && !s.ctl.irqHoldoff && !s.ctl.haltHoldoff

/-- The one-shot hold-offs are spent at this boundary (R368, R391). -/
def State.clearHoldoffs (s : State) : State :=
  { s with ctl := { s.ctl with irqHoldoff := false, haltHoldoff := false } }

/-- The boundary of a running machine: NMI, then IRQ, else the next instruction (R362, R373). -/
def State.runBoundary (s : State) : Decision :=
  let t := s.clearHoldoffs.pulseE
  if s.takesNmi then .over t.nmiSequence
  else if s.takesIrq then .over t.irqSequence
  else .execute t

/-- HALT has gone high: one instruction runs before an interrupt is taken (R391). -/
def State.leaveHalt (s : State) : State :=
  { s with ctl := { s.ctl with runState := .running, haltHoldoff := true } }

/-- Enter the halt state, at a boundary (R390). -/
def State.enterHalt (s : State) : State := { s with ctl := { s.ctl with runState := .halted } }

/-- The decision at a boundary: RES before everything (R372), a three-stated MPU frozen (R505), then HALT, NMI and IRQ
(R362); a waiting MPU does not look at HALT (U19, log 37). -/
def State.boundary (s : State) : Decision :=
  if s.env.resLow then .over s.hold
  else if s.env.tscHigh then .over s
  else
    match s.ctl.runState with
    | .held => .over s.resetSequence
    | .waiting => .over s.waitBoundary
    | .halted => if s.env.haltLow then .over s else s.leaveHalt.runBoundary
    | .running => if s.env.haltLow then .over s.enterHalt else s.runBoundary

/-- The end of a step: an NMI edge that fell during it is latched (R365), an IRQ pulse that fell during it arrives where no
instruction was executed (R367), and RES that fell during it holds the MPU
(R492, D21). -/
def State.settle (s : State) : State :=
  let t : State :=
    { s.pulseDuring with
        sys := { s.sys with nmiLatch := s.sys.nmiLatch || s.env.nmiDuring, resCut := none }
        env := { s.pulseDuring.env with nmiDuring := false } }
  if s.sys.resCut.isSome then t.setRes true else t

end Sys2Proof.Machine
end

