-- ==== Sys2Proof/Machine/Arithmetic.lean ====
section
/-! DEFINITION. The meanings of the arithmetic instructions (41_arithmetic.md): one definition for each opcode. -/

namespace Sys2Proof.Machine

/-- Accumulator A and the flags of a result. -/
def Cpu.withAlu (p : Cpu) (q : Alu) : Cpu := { p with a := q.1, ccr := q.2 }

/-- SBA (R171). -/
def execSba (s : State) : Host.Outcome State Fault Refusal :=
  let t := s.advance 0x10 1
  .next (t.setCpu (t.cpu.withAlu (aluSub t.cpu.a t.cpu.b t.cpu.ccr)))

/-- DAA (R177). -/
def execDaa (s : State) : Host.Outcome State Fault Refusal :=
  let t := s.advance 0x19 1
  .next ({ t with
          cpu := t.cpu.withAlu (aluDaa (Config.daaOverflow t.sys.draw.1) t.cpu.a t.cpu.ccr)
          sys := t.sys.draw.2 })

/-- ABA (R166). -/
def execAba (s : State) : Host.Outcome State Fault Refusal :=
  let t := s.advance 0x1B 1
  .next (t.setCpu (t.cpu.withAlu (aluAdd t.cpu.a t.cpu.b t.cpu.ccr)))

/-- NEGA (R175). -/
def execNega (s : State) : Host.Outcome State Fault Refusal :=
  .next ((s.advance 0x40 1).accUnary aluNeg .a)

/-- NEGB (R176). -/
def execNegb (s : State) : Host.Outcome State Fault Refusal :=
  .next ((s.advance 0x50 1).accUnary aluNeg .b)

/-- NEG, indexed (R174). -/
def execNegIdx (off : Byte) (s : State) : Host.Outcome State Fault Refusal :=
  .next ((s.advance 0x60 2).memUnary aluNeg (.idx off))

/-- NEG, extended (R174). -/
def execNegExt (w : Word) (s : State) : Host.Outcome State Fault Refusal :=
  .next ((s.advance 0x70 3).memUnary aluNeg (.ext w))

/-- SUBA, immediate (R169). -/
def execSubaImm (m : Byte) (s : State) : Host.Outcome State Fault Refusal :=
  .next ((s.advance 0x80 2).accOp aluSub .a (.imm m))

/-- SBCA, immediate (R172). -/
def execSbcaImm (m : Byte) (s : State) : Host.Outcome State Fault Refusal :=
  .next ((s.advance 0x82 2).accOp aluSbc .a (.imm m))

/-- ADCA, immediate (R167). -/
def execAdcaImm (m : Byte) (s : State) : Host.Outcome State Fault Refusal :=
  .next ((s.advance 0x89 2).accOp aluAdc .a (.imm m))

/-- ADDA, immediate (R164). -/
def execAddaImm (m : Byte) (s : State) : Host.Outcome State Fault Refusal :=
  .next ((s.advance 0x8B 2).accOp aluAdd .a (.imm m))

/-- SUBA, direct (R169). -/
def execSubaDir (d : Byte) (s : State) : Host.Outcome State Fault Refusal :=
  .next ((s.advance 0x90 2).accOp aluSub .a (.mem (.dir d)))

/-- SBCA, direct (R172). -/
def execSbcaDir (d : Byte) (s : State) : Host.Outcome State Fault Refusal :=
  .next ((s.advance 0x92 2).accOp aluSbc .a (.mem (.dir d)))

/-- ADCA, direct (R167). -/
def execAdcaDir (d : Byte) (s : State) : Host.Outcome State Fault Refusal :=
  .next ((s.advance 0x99 2).accOp aluAdc .a (.mem (.dir d)))

/-- ADDA, direct (R164). -/
def execAddaDir (d : Byte) (s : State) : Host.Outcome State Fault Refusal :=
  .next ((s.advance 0x9B 2).accOp aluAdd .a (.mem (.dir d)))

/-- SUBA, indexed (R169). -/
def execSubaIdx (off : Byte) (s : State) : Host.Outcome State Fault Refusal :=
  .next ((s.advance 0xA0 2).accOp aluSub .a (.mem (.idx off)))

/-- SBCA, indexed (R172). -/
def execSbcaIdx (off : Byte) (s : State) : Host.Outcome State Fault Refusal :=
  .next ((s.advance 0xA2 2).accOp aluSbc .a (.mem (.idx off)))

/-- ADCA, indexed (R167). -/
def execAdcaIdx (off : Byte) (s : State) : Host.Outcome State Fault Refusal :=
  .next ((s.advance 0xA9 2).accOp aluAdc .a (.mem (.idx off)))

/-- ADDA, indexed (R164). -/
def execAddaIdx (off : Byte) (s : State) : Host.Outcome State Fault Refusal :=
  .next ((s.advance 0xAB 2).accOp aluAdd .a (.mem (.idx off)))

/-- SUBA, extended (R169). -/
def execSubaExt (w : Word) (s : State) : Host.Outcome State Fault Refusal :=
  .next ((s.advance 0xB0 3).accOp aluSub .a (.mem (.ext w)))

/-- SBCA, extended (R172). -/
def execSbcaExt (w : Word) (s : State) : Host.Outcome State Fault Refusal :=
  .next ((s.advance 0xB2 3).accOp aluSbc .a (.mem (.ext w)))

/-- ADCA, extended (R167). -/
def execAdcaExt (w : Word) (s : State) : Host.Outcome State Fault Refusal :=
  .next ((s.advance 0xB9 3).accOp aluAdc .a (.mem (.ext w)))

/-- ADDA, extended (R164). -/
def execAddaExt (w : Word) (s : State) : Host.Outcome State Fault Refusal :=
  .next ((s.advance 0xBB 3).accOp aluAdd .a (.mem (.ext w)))

/-- SUBB, immediate (R170). -/
def execSubbImm (m : Byte) (s : State) : Host.Outcome State Fault Refusal :=
  .next ((s.advance 0xC0 2).accOp aluSub .b (.imm m))

/-- SBCB, immediate (R173). -/
def execSbcbImm (m : Byte) (s : State) : Host.Outcome State Fault Refusal :=
  .next ((s.advance 0xC2 2).accOp aluSbc .b (.imm m))

/-- ADCB, immediate (R168). -/
def execAdcbImm (m : Byte) (s : State) : Host.Outcome State Fault Refusal :=
  .next ((s.advance 0xC9 2).accOp aluAdc .b (.imm m))

/-- ADDB, immediate (R165). -/
def execAddbImm (m : Byte) (s : State) : Host.Outcome State Fault Refusal :=
  .next ((s.advance 0xCB 2).accOp aluAdd .b (.imm m))

/-- SUBB, direct (R170). -/
def execSubbDir (d : Byte) (s : State) : Host.Outcome State Fault Refusal :=
  .next ((s.advance 0xD0 2).accOp aluSub .b (.mem (.dir d)))

/-- SBCB, direct (R173). -/
def execSbcbDir (d : Byte) (s : State) : Host.Outcome State Fault Refusal :=
  .next ((s.advance 0xD2 2).accOp aluSbc .b (.mem (.dir d)))

/-- ADCB, direct (R168). -/
def execAdcbDir (d : Byte) (s : State) : Host.Outcome State Fault Refusal :=
  .next ((s.advance 0xD9 2).accOp aluAdc .b (.mem (.dir d)))

/-- ADDB, direct (R165). -/
def execAddbDir (d : Byte) (s : State) : Host.Outcome State Fault Refusal :=
  .next ((s.advance 0xDB 2).accOp aluAdd .b (.mem (.dir d)))

/-- SUBB, indexed (R170). -/
def execSubbIdx (off : Byte) (s : State) : Host.Outcome State Fault Refusal :=
  .next ((s.advance 0xE0 2).accOp aluSub .b (.mem (.idx off)))

/-- SBCB, indexed (R173). -/
def execSbcbIdx (off : Byte) (s : State) : Host.Outcome State Fault Refusal :=
  .next ((s.advance 0xE2 2).accOp aluSbc .b (.mem (.idx off)))

/-- ADCB, indexed (R168). -/
def execAdcbIdx (off : Byte) (s : State) : Host.Outcome State Fault Refusal :=
  .next ((s.advance 0xE9 2).accOp aluAdc .b (.mem (.idx off)))

/-- ADDB, indexed (R165). -/
def execAddbIdx (off : Byte) (s : State) : Host.Outcome State Fault Refusal :=
  .next ((s.advance 0xEB 2).accOp aluAdd .b (.mem (.idx off)))

/-- SUBB, extended (R170). -/
def execSubbExt (w : Word) (s : State) : Host.Outcome State Fault Refusal :=
  .next ((s.advance 0xF0 3).accOp aluSub .b (.mem (.ext w)))

/-- SBCB, extended (R173). -/
def execSbcbExt (w : Word) (s : State) : Host.Outcome State Fault Refusal :=
  .next ((s.advance 0xF2 3).accOp aluSbc .b (.mem (.ext w)))

/-- ADCB, extended (R168). -/
def execAdcbExt (w : Word) (s : State) : Host.Outcome State Fault Refusal :=
  .next ((s.advance 0xF9 3).accOp aluAdc .b (.mem (.ext w)))

/-- ADDB, extended (R165). -/
def execAddbExt (w : Word) (s : State) : Host.Outcome State Fault Refusal :=
  .next ((s.advance 0xFB 3).accOp aluAdd .b (.mem (.ext w)))

end Sys2Proof.Machine
end

