-- ==== Sys2Proof/Machine/CcrOps.lean ====
section
/-! DEFINITION. The meanings of the condition code register instructions (40_ccr_ops.md): one definition for each opcode. -/

namespace Sys2Proof.Machine

/-- TAP: the flags are replaced; when that clears I, a free choice decides whether a pending IRQ waits one instruction more
(R147, R379, D11, log 12). -/
def State.tapFlags (t : State) (f : Ccr) : State :=
  if t.cpu.ccr.i && !f.i then
    { t.setCcr f with ctl := { t.ctl with irqHoldoff := t.ctl.irqHoldoff || Config.tapDelay t.sys.draw.1 }
                      sys := t.sys.draw.2 }
  else t.setCcr f

/-- TAP (R147). -/
def execTap (s : State) : Host.Outcome State Fault Refusal :=
  let t := s.advance 0x06 1
  .next (t.tapFlags (Ccr.ofByte t.cpu.a))

/-- TPA (R148). -/
def execTpa (s : State) : Host.Outcome State Fault Refusal :=
  let t := s.advance 0x07 1
  .next (t.setCpu { t.cpu with a := t.cpu.ccr.toByte })

/-- CLV (R143). -/
def execClv (s : State) : Host.Outcome State Fault Refusal :=
  let t := s.advance 0x0A 1
  .next (t.setCcr { t.cpu.ccr with v := false })

/-- SEV (R146). -/
def execSev (s : State) : Host.Outcome State Fault Refusal :=
  let t := s.advance 0x0B 1
  .next (t.setCcr { t.cpu.ccr with v := true })

/-- CLC (R141). -/
def execClc (s : State) : Host.Outcome State Fault Refusal :=
  let t := s.advance 0x0C 1
  .next (t.setCcr { t.cpu.ccr with c := false })

/-- SEC (R144). -/
def execSec (s : State) : Host.Outcome State Fault Refusal :=
  let t := s.advance 0x0D 1
  .next (t.setCcr { t.cpu.ccr with c := true })

/-- CLI (R142). -/
def execCli (s : State) : Host.Outcome State Fault Refusal :=
  let t := s.advance 0x0E 1
  .next ({ t.setCcr { t.cpu.ccr with i := false } with
          ctl := { t.ctl with irqHoldoff := t.ctl.irqHoldoff || (s.cpu.ccr.i && s.ctl.prevOpcodeLsb) } })

/-- SEI (R145). -/
def execSei (s : State) : Host.Outcome State Fault Refusal :=
  let t := s.advance 0x0F 1
  .next (t.setCcr { t.cpu.ccr with i := true })

end Sys2Proof.Machine
end

