-- ==== Sys2Proof/Machine/DataHandling.lean ====
section
/-! DEFINITION. The meanings of the data handling instructions (43_data_handling.md): one definition for each opcode. -/

namespace Sys2Proof.Machine

/-- TAB (R264). -/
def execTab (s : State) : Host.Outcome State Fault Refusal :=
  let t := s.advance 0x16 1
  .next (t.setCpu { t.cpu with b := t.cpu.a, ccr := logicNZ t.cpu.a t.cpu.ccr })

/-- TBA (R265). -/
def execTba (s : State) : Host.Outcome State Fault Refusal :=
  let t := s.advance 0x17 1
  .next (t.setCpu { t.cpu with a := t.cpu.b, ccr := logicNZ t.cpu.b t.cpu.ccr })

/-- PULA (R244). -/
def execPula (s : State) : Host.Outcome State Fault Refusal :=
  let t := s.advance 0x32 1
  .next (t.pull8.2.setCpu { t.pull8.2.cpu with a := t.pull8.1 })

/-- PULB (R245). -/
def execPulb (s : State) : Host.Outcome State Fault Refusal :=
  let t := s.advance 0x33 1
  .next (t.pull8.2.setCpu { t.pull8.2.cpu with b := t.pull8.1 })

/-- PSHA (R242). -/
def execPsha (s : State) : Host.Outcome State Fault Refusal :=
  let t := s.advance 0x36 1
  .next (t.push8 t.cpu.a)

/-- PSHB (R243). -/
def execPshb (s : State) : Host.Outcome State Fault Refusal :=
  let t := s.advance 0x37 1
  .next (t.push8 t.cpu.b)

/-- LSRA (R260). -/
def execLsra (s : State) : Host.Outcome State Fault Refusal :=
  .next ((s.advance 0x44 1).accUnary aluLsr .a)

/-- RORA (R251). -/
def execRora (s : State) : Host.Outcome State Fault Refusal :=
  .next ((s.advance 0x46 1).accUnary aluRor .a)

/-- ASRA (R257). -/
def execAsra (s : State) : Host.Outcome State Fault Refusal :=
  .next ((s.advance 0x47 1).accUnary aluAsr .a)

/-- ASLA (R254). -/
def execAsla (s : State) : Host.Outcome State Fault Refusal :=
  .next ((s.advance 0x48 1).accUnary aluAsl .a)

/-- ROLA (R248). -/
def execRola (s : State) : Host.Outcome State Fault Refusal :=
  .next ((s.advance 0x49 1).accUnary aluRol .a)

/-- DECA (R235). -/
def execDeca (s : State) : Host.Outcome State Fault Refusal :=
  .next ((s.advance 0x4A 1).accUnary aluDec .a)

/-- INCA (R238). -/
def execInca (s : State) : Host.Outcome State Fault Refusal :=
  .next ((s.advance 0x4C 1).accUnary aluInc .a)

/-- CLRA (R232). -/
def execClra (s : State) : Host.Outcome State Fault Refusal :=
  .next ((s.advance 0x4F 1).accUnary aluClr .a)

/-- LSRB (R261). -/
def execLsrb (s : State) : Host.Outcome State Fault Refusal :=
  .next ((s.advance 0x54 1).accUnary aluLsr .b)

/-- RORB (R252). -/
def execRorb (s : State) : Host.Outcome State Fault Refusal :=
  .next ((s.advance 0x56 1).accUnary aluRor .b)

/-- ASRB (R258). -/
def execAsrb (s : State) : Host.Outcome State Fault Refusal :=
  .next ((s.advance 0x57 1).accUnary aluAsr .b)

/-- ASLB (R255). -/
def execAslb (s : State) : Host.Outcome State Fault Refusal :=
  .next ((s.advance 0x58 1).accUnary aluAsl .b)

/-- ROLB (R249). -/
def execRolb (s : State) : Host.Outcome State Fault Refusal :=
  .next ((s.advance 0x59 1).accUnary aluRol .b)

/-- DECB (R236). -/
def execDecb (s : State) : Host.Outcome State Fault Refusal :=
  .next ((s.advance 0x5A 1).accUnary aluDec .b)

/-- INCB (R239). -/
def execIncb (s : State) : Host.Outcome State Fault Refusal :=
  .next ((s.advance 0x5C 1).accUnary aluInc .b)

/-- CLRB (R233). -/
def execClrb (s : State) : Host.Outcome State Fault Refusal :=
  .next ((s.advance 0x5F 1).accUnary aluClr .b)

/-- LSR, indexed (R259). -/
def execLsrIdx (off : Byte) (s : State) : Host.Outcome State Fault Refusal :=
  .next ((s.advance 0x64 2).memUnary aluLsr (.idx off))

/-- ROR, indexed (R250). -/
def execRorIdx (off : Byte) (s : State) : Host.Outcome State Fault Refusal :=
  .next ((s.advance 0x66 2).memUnary aluRor (.idx off))

/-- ASR, indexed (R256). -/
def execAsrIdx (off : Byte) (s : State) : Host.Outcome State Fault Refusal :=
  .next ((s.advance 0x67 2).memUnary aluAsr (.idx off))

/-- ASL, indexed (R253). -/
def execAslIdx (off : Byte) (s : State) : Host.Outcome State Fault Refusal :=
  .next ((s.advance 0x68 2).memUnary aluAsl (.idx off))

/-- ROL, indexed (R247). -/
def execRolIdx (off : Byte) (s : State) : Host.Outcome State Fault Refusal :=
  .next ((s.advance 0x69 2).memUnary aluRol (.idx off))

/-- DEC, indexed (R234). -/
def execDecIdx (off : Byte) (s : State) : Host.Outcome State Fault Refusal :=
  .next ((s.advance 0x6A 2).memUnary aluDec (.idx off))

/-- INC, indexed (R237). -/
def execIncIdx (off : Byte) (s : State) : Host.Outcome State Fault Refusal :=
  .next ((s.advance 0x6C 2).memUnary aluInc (.idx off))

/-- CLR, indexed (R231). -/
def execClrIdx (off : Byte) (s : State) : Host.Outcome State Fault Refusal :=
  .next ((s.advance 0x6F 2).memClear (.idx off))

/-- LSR, extended (R259). -/
def execLsrExt (w : Word) (s : State) : Host.Outcome State Fault Refusal :=
  .next ((s.advance 0x74 3).memUnary aluLsr (.ext w))

/-- ROR, extended (R250). -/
def execRorExt (w : Word) (s : State) : Host.Outcome State Fault Refusal :=
  .next ((s.advance 0x76 3).memUnary aluRor (.ext w))

/-- ASR, extended (R256). -/
def execAsrExt (w : Word) (s : State) : Host.Outcome State Fault Refusal :=
  .next ((s.advance 0x77 3).memUnary aluAsr (.ext w))

/-- ASL, extended (R253). -/
def execAslExt (w : Word) (s : State) : Host.Outcome State Fault Refusal :=
  .next ((s.advance 0x78 3).memUnary aluAsl (.ext w))

/-- ROL, extended (R247). -/
def execRolExt (w : Word) (s : State) : Host.Outcome State Fault Refusal :=
  .next ((s.advance 0x79 3).memUnary aluRol (.ext w))

/-- DEC, extended (R234). -/
def execDecExt (w : Word) (s : State) : Host.Outcome State Fault Refusal :=
  .next ((s.advance 0x7A 3).memUnary aluDec (.ext w))

/-- INC, extended (R237). -/
def execIncExt (w : Word) (s : State) : Host.Outcome State Fault Refusal :=
  .next ((s.advance 0x7C 3).memUnary aluInc (.ext w))

/-- CLR, extended (R231). -/
def execClrExt (w : Word) (s : State) : Host.Outcome State Fault Refusal :=
  .next ((s.advance 0x7F 3).memClear (.ext w))

/-- LDAA, immediate (R240). -/
def execLdaaImm (m : Byte) (s : State) : Host.Outcome State Fault Refusal :=
  .next ((s.advance 0x86 2).accOp aluLoad .a (.imm m))

/-- LDAA, direct (R240). -/
def execLdaaDir (d : Byte) (s : State) : Host.Outcome State Fault Refusal :=
  .next ((s.advance 0x96 2).accOp aluLoad .a (.mem (.dir d)))

/-- STAA, direct (R262). -/
def execStaaDir (d : Byte) (s : State) : Host.Outcome State Fault Refusal :=
  .next ((s.advance 0x97 2).storeAcc .a (.dir d))

/-- LDAA, indexed (R240). -/
def execLdaaIdx (off : Byte) (s : State) : Host.Outcome State Fault Refusal :=
  .next ((s.advance 0xA6 2).accOp aluLoad .a (.mem (.idx off)))

/-- STAA, indexed (R262). -/
def execStaaIdx (off : Byte) (s : State) : Host.Outcome State Fault Refusal :=
  .next ((s.advance 0xA7 2).storeAcc .a (.idx off))

/-- LDAA, extended (R240). -/
def execLdaaExt (w : Word) (s : State) : Host.Outcome State Fault Refusal :=
  .next ((s.advance 0xB6 3).accOp aluLoad .a (.mem (.ext w)))

/-- STAA, extended (R262). -/
def execStaaExt (w : Word) (s : State) : Host.Outcome State Fault Refusal :=
  .next ((s.advance 0xB7 3).storeAcc .a (.ext w))

/-- LDAB, immediate (R241). -/
def execLdabImm (m : Byte) (s : State) : Host.Outcome State Fault Refusal :=
  .next ((s.advance 0xC6 2).accOp aluLoad .b (.imm m))

/-- LDAB, direct (R241). -/
def execLdabDir (d : Byte) (s : State) : Host.Outcome State Fault Refusal :=
  .next ((s.advance 0xD6 2).accOp aluLoad .b (.mem (.dir d)))

/-- STAB, direct (R263). -/
def execStabDir (d : Byte) (s : State) : Host.Outcome State Fault Refusal :=
  .next ((s.advance 0xD7 2).storeAcc .b (.dir d))

/-- LDAB, indexed (R241). -/
def execLdabIdx (off : Byte) (s : State) : Host.Outcome State Fault Refusal :=
  .next ((s.advance 0xE6 2).accOp aluLoad .b (.mem (.idx off)))

/-- STAB, indexed (R263). -/
def execStabIdx (off : Byte) (s : State) : Host.Outcome State Fault Refusal :=
  .next ((s.advance 0xE7 2).storeAcc .b (.idx off))

/-- LDAB, extended (R241). -/
def execLdabExt (w : Word) (s : State) : Host.Outcome State Fault Refusal :=
  .next ((s.advance 0xF6 3).accOp aluLoad .b (.mem (.ext w)))

/-- STAB, extended (R263). -/
def execStabExt (w : Word) (s : State) : Host.Outcome State Fault Refusal :=
  .next ((s.advance 0xF7 3).storeAcc .b (.ext w))

end Sys2Proof.Machine
end

