-- ==== Sys2Proof/Machine/IndexStack.lean ====
section
/-! DEFINITION. The meanings of the index register and stack pointer instructions (44_index_stack.md): one definition for each opcode. -/

namespace Sys2Proof.Machine

/-- LDX: X is replaced after both bytes are read (R285). -/
def State.loadX (s : State) (o : Operand16) : State :=
  let m := s.load16 o
  m.2.setCpu { s.cpu with x := m.1, ccr := move16Flags m.1 s.cpu.ccr }

/-- LDS (R286). -/
def State.loadSP (s : State) (o : Operand16) : State :=
  let m := s.load16 o
  m.2.setCpu { s.cpu with sp := m.1, ccr := move16Flags m.1 s.cpu.ccr }

/-- CPX: the flags of the comparison, nothing else (R280). -/
def State.compareX (s : State) (o : Operand16) : State :=
  let m := s.load16 o
  m.2.setCcr (cpxFlags s.cpu.x m.1 s.cpu.ccr)

/-- INX (R283). -/
def execInx (s : State) : Host.Outcome State Fault Refusal :=
  let t := s.advance 0x08 1
  .next (t.setCpu { t.cpu with x := t.cpu.x + 1, ccr := { t.cpu.ccr with z := t.cpu.x + 1 == 0 } })

/-- DEX (R281). -/
def execDex (s : State) : Host.Outcome State Fault Refusal :=
  let t := s.advance 0x09 1
  .next (t.setCpu { t.cpu with x := t.cpu.x - 1, ccr := { t.cpu.ccr with z := t.cpu.x - 1 == 0 } })

/-- TSX (R290). -/
def execTsx (s : State) : Host.Outcome State Fault Refusal :=
  let t := s.advance 0x30 1
  .next (t.setCpu { t.cpu with x := t.cpu.sp + 1 })

/-- INS (R284). -/
def execIns (s : State) : Host.Outcome State Fault Refusal :=
  let t := s.advance 0x31 1
  .next (t.setCpu { t.cpu with sp := t.cpu.sp + 1 })

/-- DES (R282). -/
def execDes (s : State) : Host.Outcome State Fault Refusal :=
  let t := s.advance 0x34 1
  .next (t.setCpu { t.cpu with sp := t.cpu.sp - 1 })

/-- TXS (R289). -/
def execTxs (s : State) : Host.Outcome State Fault Refusal :=
  let t := s.advance 0x35 1
  .next (t.setCpu { t.cpu with sp := t.cpu.x - 1 })

/-- CPX, immediate (R280). -/
def execCpxImm (w : Word) (s : State) : Host.Outcome State Fault Refusal :=
  .next ((s.advance 0x8C 3).compareX (.imm w))

/-- LDS, immediate (R286). -/
def execLdsImm (w : Word) (s : State) : Host.Outcome State Fault Refusal :=
  .next ((s.advance 0x8E 3).loadSP (.imm w))

/-- CPX, direct (R280). -/
def execCpxDir (d : Byte) (s : State) : Host.Outcome State Fault Refusal :=
  .next ((s.advance 0x9C 2).compareX (.mem (.dir d)))

/-- LDS, direct (R286). -/
def execLdsDir (d : Byte) (s : State) : Host.Outcome State Fault Refusal :=
  .next ((s.advance 0x9E 2).loadSP (.mem (.dir d)))

/-- STS, direct (R288). -/
def execStsDir (d : Byte) (s : State) : Host.Outcome State Fault Refusal :=
  .next ((s.advance 0x9F 2).storeWord s.cpu.sp (.dir d))

/-- CPX, indexed (R280). -/
def execCpxIdx (off : Byte) (s : State) : Host.Outcome State Fault Refusal :=
  .next ((s.advance 0xAC 2).compareX (.mem (.idx off)))

/-- LDS, indexed (R286). -/
def execLdsIdx (off : Byte) (s : State) : Host.Outcome State Fault Refusal :=
  .next ((s.advance 0xAE 2).loadSP (.mem (.idx off)))

/-- STS, indexed (R288). -/
def execStsIdx (off : Byte) (s : State) : Host.Outcome State Fault Refusal :=
  .next ((s.advance 0xAF 2).storeWord s.cpu.sp (.idx off))

/-- CPX, extended (R280). -/
def execCpxExt (w : Word) (s : State) : Host.Outcome State Fault Refusal :=
  .next ((s.advance 0xBC 3).compareX (.mem (.ext w)))

/-- LDS, extended (R286). -/
def execLdsExt (w : Word) (s : State) : Host.Outcome State Fault Refusal :=
  .next ((s.advance 0xBE 3).loadSP (.mem (.ext w)))

/-- STS, extended (R288). -/
def execStsExt (w : Word) (s : State) : Host.Outcome State Fault Refusal :=
  .next ((s.advance 0xBF 3).storeWord s.cpu.sp (.ext w))

/-- LDX, immediate (R285). -/
def execLdxImm (w : Word) (s : State) : Host.Outcome State Fault Refusal :=
  .next ((s.advance 0xCE 3).loadX (.imm w))

/-- LDX, direct (R285). -/
def execLdxDir (d : Byte) (s : State) : Host.Outcome State Fault Refusal :=
  .next ((s.advance 0xDE 2).loadX (.mem (.dir d)))

/-- STX, direct (R287). -/
def execStxDir (d : Byte) (s : State) : Host.Outcome State Fault Refusal :=
  .next ((s.advance 0xDF 2).storeWord s.cpu.x (.dir d))

/-- LDX, indexed (R285). -/
def execLdxIdx (off : Byte) (s : State) : Host.Outcome State Fault Refusal :=
  .next ((s.advance 0xEE 2).loadX (.mem (.idx off)))

/-- STX, indexed (R287). -/
def execStxIdx (off : Byte) (s : State) : Host.Outcome State Fault Refusal :=
  .next ((s.advance 0xEF 2).storeWord s.cpu.x (.idx off))

/-- LDX, extended (R285). -/
def execLdxExt (w : Word) (s : State) : Host.Outcome State Fault Refusal :=
  .next ((s.advance 0xFE 3).loadX (.mem (.ext w)))

/-- STX, extended (R287). -/
def execStxExt (w : Word) (s : State) : Host.Outcome State Fault Refusal :=
  .next ((s.advance 0xFF 3).storeWord s.cpu.x (.ext w))

end Sys2Proof.Machine
end

