-- ==== Sys2Proof/Machine/JumpBranch.lean ====
section
/-! DEFINITION. The meanings of the jump, branch and interrupt instructions (45_jump_branch.md): one definition for each opcode. -/

namespace Sys2Proof.Machine

/-- SWI (R332, R371): an NMI edge while it executes, from other hardware, made by a device that its own pushes reach, or
noted by its fetch, makes it fetch the IRQ vector, and is consumed (R374). -/
def State.softwareInterrupt (t : State) : State :=
  { t.takeInterrupt t.cpu.pc swiVector irqVector t.env.nmiDuring with env := { t.env with nmiDuring := false } }

/-- NOP (R329). -/
def execNop (s : State) : Host.Outcome State Fault Refusal := .next (s.advance 0x01 1)

/-- BRA (R311). -/
def execBra (rel : Byte) (s : State) : Host.Outcome State Fault Refusal :=
  .next ((s.advance 0x20 2).branch .always rel)

/-- BHI (R317). -/
def execBhi (rel : Byte) (s : State) : Host.Outcome State Fault Refusal :=
  .next ((s.advance 0x22 2).branch .hi rel)

/-- BLS (R319). -/
def execBls (rel : Byte) (s : State) : Host.Outcome State Fault Refusal :=
  .next ((s.advance 0x23 2).branch .ls rel)

/-- BCC (R312). -/
def execBcc (rel : Byte) (s : State) : Host.Outcome State Fault Refusal :=
  .next ((s.advance 0x24 2).branch .cc rel)

/-- BCS (R313). -/
def execBcs (rel : Byte) (s : State) : Host.Outcome State Fault Refusal :=
  .next ((s.advance 0x25 2).branch .cs rel)

/-- BNE (R322). -/
def execBne (rel : Byte) (s : State) : Host.Outcome State Fault Refusal :=
  .next ((s.advance 0x26 2).branch .ne rel)

/-- BEQ (R314). -/
def execBeq (rel : Byte) (s : State) : Host.Outcome State Fault Refusal :=
  .next ((s.advance 0x27 2).branch .eq rel)

/-- BVC (R323). -/
def execBvc (rel : Byte) (s : State) : Host.Outcome State Fault Refusal :=
  .next ((s.advance 0x28 2).branch .vc rel)

/-- BVS (R324). -/
def execBvs (rel : Byte) (s : State) : Host.Outcome State Fault Refusal :=
  .next ((s.advance 0x29 2).branch .vs rel)

/-- BPL (R325). -/
def execBpl (rel : Byte) (s : State) : Host.Outcome State Fault Refusal :=
  .next ((s.advance 0x2A 2).branch .pl rel)

/-- BMI (R321). -/
def execBmi (rel : Byte) (s : State) : Host.Outcome State Fault Refusal :=
  .next ((s.advance 0x2B 2).branch .mi rel)

/-- BGE (R315). -/
def execBge (rel : Byte) (s : State) : Host.Outcome State Fault Refusal :=
  .next ((s.advance 0x2C 2).branch .ge rel)

/-- BLT (R320). -/
def execBlt (rel : Byte) (s : State) : Host.Outcome State Fault Refusal :=
  .next ((s.advance 0x2D 2).branch .lt rel)

/-- BGT (R316). -/
def execBgt (rel : Byte) (s : State) : Host.Outcome State Fault Refusal :=
  .next ((s.advance 0x2E 2).branch .gt rel)

/-- BLE (R318). -/
def execBle (rel : Byte) (s : State) : Host.Outcome State Fault Refusal :=
  .next ((s.advance 0x2F 2).branch .le rel)

/-- RTS (R331). -/
def execRts (s : State) : Host.Outcome State Fault Refusal :=
  let t := s.advance 0x39 1
  .next (t.pull16.2.jump t.pull16.1)

/-- RTI (R330). -/
def execRti (s : State) : Host.Outcome State Fault Refusal :=
  let t := s.advance 0x3B 1
  .next (t.returnFromInterrupt)

/-- WAI (R333). -/
def execWai (s : State) : Host.Outcome State Fault Refusal :=
  let t := s.advance 0x3E 1
  .next ({ t.stackRegisters t.cpu.pc with ctl := { t.ctl with runState := .waiting } })

/-- SWI (R332). -/
def execSwi (s : State) : Host.Outcome State Fault Refusal :=
  let t := s.advance 0x3F 1
  .next (t.softwareInterrupt)

/-- JMP, indexed (R327). -/
def execJmpIdx (off : Byte) (s : State) : Host.Outcome State Fault Refusal :=
  .next ((s.advance 0x6E 2).jump (s.cpu.ea (.idx off)))

/-- JMP, extended (R327). -/
def execJmpExt (w : Word) (s : State) : Host.Outcome State Fault Refusal :=
  .next ((s.advance 0x7E 3).jump (s.cpu.ea (.ext w)))

/-- BSR (R326). -/
def execBsr (rel : Byte) (s : State) : Host.Outcome State Fault Refusal :=
  .next ((s.advance 0x8D 2).call (s.cpu.pc + 2 + sext16 rel))

/-- JSR, indexed (R328). -/
def execJsrIdx (off : Byte) (s : State) : Host.Outcome State Fault Refusal :=
  .next ((s.advance 0xAD 2).call (s.cpu.ea (.idx off)))

/-- JSR, extended (R328). -/
def execJsrExt (w : Word) (s : State) : Host.Outcome State Fault Refusal :=
  .next ((s.advance 0xBD 3).call (s.cpu.ea (.ext w)))

end Sys2Proof.Machine
end

