-- ==== Sys2Proof/Machine/LogicTest.lean ====
section
/-! DEFINITION. The meanings of the logic and data test instructions (42_logic_test.md): one definition for each opcode. -/

namespace Sys2Proof.Machine

/-- CBA (R214). -/
def execCba (s : State) : Host.Outcome State Fault Refusal :=
  let t := s.advance 0x11 1
  .next (t.setCcr (aluSub t.cpu.a t.cpu.b t.cpu.ccr).2)

/-- COMA (R204). -/
def execComa (s : State) : Host.Outcome State Fault Refusal :=
  .next ((s.advance 0x43 1).accUnary aluCom .a)

/-- TSTA (R217). -/
def execTsta (s : State) : Host.Outcome State Fault Refusal :=
  .next ((s.advance 0x4D 1).setCcr (aluTst (s.cpu.acc .a) s.cpu.ccr).2)

/-- COMB (R205). -/
def execComb (s : State) : Host.Outcome State Fault Refusal :=
  .next ((s.advance 0x53 1).accUnary aluCom .b)

/-- TSTB (R218). -/
def execTstb (s : State) : Host.Outcome State Fault Refusal :=
  .next ((s.advance 0x5D 1).setCcr (aluTst (s.cpu.acc .b) s.cpu.ccr).2)

/-- COM, indexed (R203). -/
def execComIdx (off : Byte) (s : State) : Host.Outcome State Fault Refusal :=
  .next ((s.advance 0x63 2).memUnary aluCom (.idx off))

/-- TST, indexed (R216). -/
def execTstIdx (off : Byte) (s : State) : Host.Outcome State Fault Refusal :=
  .next ((s.advance 0x6D 2).memTest (.idx off))

/-- COM, extended (R203). -/
def execComExt (w : Word) (s : State) : Host.Outcome State Fault Refusal :=
  .next ((s.advance 0x73 3).memUnary aluCom (.ext w))

/-- TST, extended (R216). -/
def execTstExt (w : Word) (s : State) : Host.Outcome State Fault Refusal :=
  .next ((s.advance 0x7D 3).memTest (.ext w))

/-- CMPA, immediate (R212). -/
def execCmpaImm (m : Byte) (s : State) : Host.Outcome State Fault Refusal :=
  .next ((s.advance 0x81 2).accTest aluSub .a (.imm m))

/-- ANDA, immediate (R201). -/
def execAndaImm (m : Byte) (s : State) : Host.Outcome State Fault Refusal :=
  .next ((s.advance 0x84 2).accOp aluAnd .a (.imm m))

/-- BITA, immediate (R210). -/
def execBitaImm (m : Byte) (s : State) : Host.Outcome State Fault Refusal :=
  .next ((s.advance 0x85 2).accTest aluAnd .a (.imm m))

/-- EORA, immediate (R206). -/
def execEoraImm (m : Byte) (s : State) : Host.Outcome State Fault Refusal :=
  .next ((s.advance 0x88 2).accOp aluEor .a (.imm m))

/-- ORAA, immediate (R208). -/
def execOraaImm (m : Byte) (s : State) : Host.Outcome State Fault Refusal :=
  .next ((s.advance 0x8A 2).accOp aluOra .a (.imm m))

/-- CMPA, direct (R212). -/
def execCmpaDir (d : Byte) (s : State) : Host.Outcome State Fault Refusal :=
  .next ((s.advance 0x91 2).accTest aluSub .a (.mem (.dir d)))

/-- ANDA, direct (R201). -/
def execAndaDir (d : Byte) (s : State) : Host.Outcome State Fault Refusal :=
  .next ((s.advance 0x94 2).accOp aluAnd .a (.mem (.dir d)))

/-- BITA, direct (R210). -/
def execBitaDir (d : Byte) (s : State) : Host.Outcome State Fault Refusal :=
  .next ((s.advance 0x95 2).accTest aluAnd .a (.mem (.dir d)))

/-- EORA, direct (R206). -/
def execEoraDir (d : Byte) (s : State) : Host.Outcome State Fault Refusal :=
  .next ((s.advance 0x98 2).accOp aluEor .a (.mem (.dir d)))

/-- ORAA, direct (R208). -/
def execOraaDir (d : Byte) (s : State) : Host.Outcome State Fault Refusal :=
  .next ((s.advance 0x9A 2).accOp aluOra .a (.mem (.dir d)))

/-- CMPA, indexed (R212). -/
def execCmpaIdx (off : Byte) (s : State) : Host.Outcome State Fault Refusal :=
  .next ((s.advance 0xA1 2).accTest aluSub .a (.mem (.idx off)))

/-- ANDA, indexed (R201). -/
def execAndaIdx (off : Byte) (s : State) : Host.Outcome State Fault Refusal :=
  .next ((s.advance 0xA4 2).accOp aluAnd .a (.mem (.idx off)))

/-- BITA, indexed (R210). -/
def execBitaIdx (off : Byte) (s : State) : Host.Outcome State Fault Refusal :=
  .next ((s.advance 0xA5 2).accTest aluAnd .a (.mem (.idx off)))

/-- EORA, indexed (R206). -/
def execEoraIdx (off : Byte) (s : State) : Host.Outcome State Fault Refusal :=
  .next ((s.advance 0xA8 2).accOp aluEor .a (.mem (.idx off)))

/-- ORAA, indexed (R208). -/
def execOraaIdx (off : Byte) (s : State) : Host.Outcome State Fault Refusal :=
  .next ((s.advance 0xAA 2).accOp aluOra .a (.mem (.idx off)))

/-- CMPA, extended (R212). -/
def execCmpaExt (w : Word) (s : State) : Host.Outcome State Fault Refusal :=
  .next ((s.advance 0xB1 3).accTest aluSub .a (.mem (.ext w)))

/-- ANDA, extended (R201). -/
def execAndaExt (w : Word) (s : State) : Host.Outcome State Fault Refusal :=
  .next ((s.advance 0xB4 3).accOp aluAnd .a (.mem (.ext w)))

/-- BITA, extended (R210). -/
def execBitaExt (w : Word) (s : State) : Host.Outcome State Fault Refusal :=
  .next ((s.advance 0xB5 3).accTest aluAnd .a (.mem (.ext w)))

/-- EORA, extended (R206). -/
def execEoraExt (w : Word) (s : State) : Host.Outcome State Fault Refusal :=
  .next ((s.advance 0xB8 3).accOp aluEor .a (.mem (.ext w)))

/-- ORAA, extended (R208). -/
def execOraaExt (w : Word) (s : State) : Host.Outcome State Fault Refusal :=
  .next ((s.advance 0xBA 3).accOp aluOra .a (.mem (.ext w)))

/-- CMPB, immediate (R213). -/
def execCmpbImm (m : Byte) (s : State) : Host.Outcome State Fault Refusal :=
  .next ((s.advance 0xC1 2).accTest aluSub .b (.imm m))

/-- ANDB, immediate (R202). -/
def execAndbImm (m : Byte) (s : State) : Host.Outcome State Fault Refusal :=
  .next ((s.advance 0xC4 2).accOp aluAnd .b (.imm m))

/-- BITB, immediate (R211). -/
def execBitbImm (m : Byte) (s : State) : Host.Outcome State Fault Refusal :=
  .next ((s.advance 0xC5 2).accTest aluAnd .b (.imm m))

/-- EORB, immediate (R207). -/
def execEorbImm (m : Byte) (s : State) : Host.Outcome State Fault Refusal :=
  .next ((s.advance 0xC8 2).accOp aluEor .b (.imm m))

/-- ORAB, immediate (R209). -/
def execOrabImm (m : Byte) (s : State) : Host.Outcome State Fault Refusal :=
  .next ((s.advance 0xCA 2).accOp aluOra .b (.imm m))

/-- CMPB, direct (R213). -/
def execCmpbDir (d : Byte) (s : State) : Host.Outcome State Fault Refusal :=
  .next ((s.advance 0xD1 2).accTest aluSub .b (.mem (.dir d)))

/-- ANDB, direct (R202). -/
def execAndbDir (d : Byte) (s : State) : Host.Outcome State Fault Refusal :=
  .next ((s.advance 0xD4 2).accOp aluAnd .b (.mem (.dir d)))

/-- BITB, direct (R211). -/
def execBitbDir (d : Byte) (s : State) : Host.Outcome State Fault Refusal :=
  .next ((s.advance 0xD5 2).accTest aluAnd .b (.mem (.dir d)))

/-- EORB, direct (R207). -/
def execEorbDir (d : Byte) (s : State) : Host.Outcome State Fault Refusal :=
  .next ((s.advance 0xD8 2).accOp aluEor .b (.mem (.dir d)))

/-- ORAB, direct (R209). -/
def execOrabDir (d : Byte) (s : State) : Host.Outcome State Fault Refusal :=
  .next ((s.advance 0xDA 2).accOp aluOra .b (.mem (.dir d)))

/-- CMPB, indexed (R213). -/
def execCmpbIdx (off : Byte) (s : State) : Host.Outcome State Fault Refusal :=
  .next ((s.advance 0xE1 2).accTest aluSub .b (.mem (.idx off)))

/-- ANDB, indexed (R202). -/
def execAndbIdx (off : Byte) (s : State) : Host.Outcome State Fault Refusal :=
  .next ((s.advance 0xE4 2).accOp aluAnd .b (.mem (.idx off)))

/-- BITB, indexed (R211). -/
def execBitbIdx (off : Byte) (s : State) : Host.Outcome State Fault Refusal :=
  .next ((s.advance 0xE5 2).accTest aluAnd .b (.mem (.idx off)))

/-- EORB, indexed (R207). -/
def execEorbIdx (off : Byte) (s : State) : Host.Outcome State Fault Refusal :=
  .next ((s.advance 0xE8 2).accOp aluEor .b (.mem (.idx off)))

/-- ORAB, indexed (R209). -/
def execOrabIdx (off : Byte) (s : State) : Host.Outcome State Fault Refusal :=
  .next ((s.advance 0xEA 2).accOp aluOra .b (.mem (.idx off)))

/-- CMPB, extended (R213). -/
def execCmpbExt (w : Word) (s : State) : Host.Outcome State Fault Refusal :=
  .next ((s.advance 0xF1 3).accTest aluSub .b (.mem (.ext w)))

/-- ANDB, extended (R202). -/
def execAndbExt (w : Word) (s : State) : Host.Outcome State Fault Refusal :=
  .next ((s.advance 0xF4 3).accOp aluAnd .b (.mem (.ext w)))

/-- BITB, extended (R211). -/
def execBitbExt (w : Word) (s : State) : Host.Outcome State Fault Refusal :=
  .next ((s.advance 0xF5 3).accTest aluAnd .b (.mem (.ext w)))

/-- EORB, extended (R207). -/
def execEorbExt (w : Word) (s : State) : Host.Outcome State Fault Refusal :=
  .next ((s.advance 0xF8 3).accOp aluEor .b (.mem (.ext w)))

/-- ORAB, extended (R209). -/
def execOrabExt (w : Word) (s : State) : Host.Outcome State Fault Refusal :=
  .next ((s.advance 0xFA 3).accOp aluOra .b (.mem (.ext w)))

end Sys2Proof.Machine
end

