-- ==== Sys2Proof/Machine/Dispatch.lean ====
section
/-! DEFINITION. One arm for each instruction, each one call of its meaning. -/

namespace Sys2Proof.Machine

def exec (i : Instr) (s : State) : Host.Outcome State Fault Refusal :=
  match i with
  | .nop => Sys2Proof.Machine.execNop s
  | .tap => Sys2Proof.Machine.execTap s
  | .tpa => Sys2Proof.Machine.execTpa s
  | .inx => Sys2Proof.Machine.execInx s
  | .dex => Sys2Proof.Machine.execDex s
  | .clv => Sys2Proof.Machine.execClv s
  | .sev => Sys2Proof.Machine.execSev s
  | .clc => Sys2Proof.Machine.execClc s
  | .sec => Sys2Proof.Machine.execSec s
  | .cli => Sys2Proof.Machine.execCli s
  | .sei => Sys2Proof.Machine.execSei s
  | .sba => Sys2Proof.Machine.execSba s
  | .cba => Sys2Proof.Machine.execCba s
  | .tab => Sys2Proof.Machine.execTab s
  | .tba => Sys2Proof.Machine.execTba s
  | .daa => Sys2Proof.Machine.execDaa s
  | .aba => Sys2Proof.Machine.execAba s
  | .bra rel => Sys2Proof.Machine.execBra rel s
  | .bhi rel => Sys2Proof.Machine.execBhi rel s
  | .bls rel => Sys2Proof.Machine.execBls rel s
  | .bcc rel => Sys2Proof.Machine.execBcc rel s
  | .bcs rel => Sys2Proof.Machine.execBcs rel s
  | .bne rel => Sys2Proof.Machine.execBne rel s
  | .beq rel => Sys2Proof.Machine.execBeq rel s
  | .bvc rel => Sys2Proof.Machine.execBvc rel s
  | .bvs rel => Sys2Proof.Machine.execBvs rel s
  | .bpl rel => Sys2Proof.Machine.execBpl rel s
  | .bmi rel => Sys2Proof.Machine.execBmi rel s
  | .bge rel => Sys2Proof.Machine.execBge rel s
  | .blt rel => Sys2Proof.Machine.execBlt rel s
  | .bgt rel => Sys2Proof.Machine.execBgt rel s
  | .ble rel => Sys2Proof.Machine.execBle rel s
  | .tsx => Sys2Proof.Machine.execTsx s
  | .ins => Sys2Proof.Machine.execIns s
  | .pula => Sys2Proof.Machine.execPula s
  | .pulb => Sys2Proof.Machine.execPulb s
  | .des => Sys2Proof.Machine.execDes s
  | .txs => Sys2Proof.Machine.execTxs s
  | .psha => Sys2Proof.Machine.execPsha s
  | .pshb => Sys2Proof.Machine.execPshb s
  | .rts => Sys2Proof.Machine.execRts s
  | .rti => Sys2Proof.Machine.execRti s
  | .wai => Sys2Proof.Machine.execWai s
  | .swi => Sys2Proof.Machine.execSwi s
  | .nega => Sys2Proof.Machine.execNega s
  | .coma => Sys2Proof.Machine.execComa s
  | .lsra => Sys2Proof.Machine.execLsra s
  | .rora => Sys2Proof.Machine.execRora s
  | .asra => Sys2Proof.Machine.execAsra s
  | .asla => Sys2Proof.Machine.execAsla s
  | .rola => Sys2Proof.Machine.execRola s
  | .deca => Sys2Proof.Machine.execDeca s
  | .inca => Sys2Proof.Machine.execInca s
  | .tsta => Sys2Proof.Machine.execTsta s
  | .clra => Sys2Proof.Machine.execClra s
  | .negb => Sys2Proof.Machine.execNegb s
  | .comb => Sys2Proof.Machine.execComb s
  | .lsrb => Sys2Proof.Machine.execLsrb s
  | .rorb => Sys2Proof.Machine.execRorb s
  | .asrb => Sys2Proof.Machine.execAsrb s
  | .aslb => Sys2Proof.Machine.execAslb s
  | .rolb => Sys2Proof.Machine.execRolb s
  | .decb => Sys2Proof.Machine.execDecb s
  | .incb => Sys2Proof.Machine.execIncb s
  | .tstb => Sys2Proof.Machine.execTstb s
  | .clrb => Sys2Proof.Machine.execClrb s
  | .negIdx off => Sys2Proof.Machine.execNegIdx off s
  | .comIdx off => Sys2Proof.Machine.execComIdx off s
  | .lsrIdx off => Sys2Proof.Machine.execLsrIdx off s
  | .rorIdx off => Sys2Proof.Machine.execRorIdx off s
  | .asrIdx off => Sys2Proof.Machine.execAsrIdx off s
  | .aslIdx off => Sys2Proof.Machine.execAslIdx off s
  | .rolIdx off => Sys2Proof.Machine.execRolIdx off s
  | .decIdx off => Sys2Proof.Machine.execDecIdx off s
  | .incIdx off => Sys2Proof.Machine.execIncIdx off s
  | .tstIdx off => Sys2Proof.Machine.execTstIdx off s
  | .jmpIdx off => Sys2Proof.Machine.execJmpIdx off s
  | .clrIdx off => Sys2Proof.Machine.execClrIdx off s
  | .negExt w => Sys2Proof.Machine.execNegExt w s
  | .comExt w => Sys2Proof.Machine.execComExt w s
  | .lsrExt w => Sys2Proof.Machine.execLsrExt w s
  | .rorExt w => Sys2Proof.Machine.execRorExt w s
  | .asrExt w => Sys2Proof.Machine.execAsrExt w s
  | .aslExt w => Sys2Proof.Machine.execAslExt w s
  | .rolExt w => Sys2Proof.Machine.execRolExt w s
  | .decExt w => Sys2Proof.Machine.execDecExt w s
  | .incExt w => Sys2Proof.Machine.execIncExt w s
  | .tstExt w => Sys2Proof.Machine.execTstExt w s
  | .jmpExt w => Sys2Proof.Machine.execJmpExt w s
  | .clrExt w => Sys2Proof.Machine.execClrExt w s
  | .subaImm m => Sys2Proof.Machine.execSubaImm m s
  | .cmpaImm m => Sys2Proof.Machine.execCmpaImm m s
  | .sbcaImm m => Sys2Proof.Machine.execSbcaImm m s
  | .andaImm m => Sys2Proof.Machine.execAndaImm m s
  | .bitaImm m => Sys2Proof.Machine.execBitaImm m s
  | .ldaaImm m => Sys2Proof.Machine.execLdaaImm m s
  | .eoraImm m => Sys2Proof.Machine.execEoraImm m s
  | .adcaImm m => Sys2Proof.Machine.execAdcaImm m s
  | .oraaImm m => Sys2Proof.Machine.execOraaImm m s
  | .addaImm m => Sys2Proof.Machine.execAddaImm m s
  | .cpxImm w => Sys2Proof.Machine.execCpxImm w s
  | .bsr rel => Sys2Proof.Machine.execBsr rel s
  | .ldsImm w => Sys2Proof.Machine.execLdsImm w s
  | .subaDir d => Sys2Proof.Machine.execSubaDir d s
  | .cmpaDir d => Sys2Proof.Machine.execCmpaDir d s
  | .sbcaDir d => Sys2Proof.Machine.execSbcaDir d s
  | .andaDir d => Sys2Proof.Machine.execAndaDir d s
  | .bitaDir d => Sys2Proof.Machine.execBitaDir d s
  | .ldaaDir d => Sys2Proof.Machine.execLdaaDir d s
  | .staaDir d => Sys2Proof.Machine.execStaaDir d s
  | .eoraDir d => Sys2Proof.Machine.execEoraDir d s
  | .adcaDir d => Sys2Proof.Machine.execAdcaDir d s
  | .oraaDir d => Sys2Proof.Machine.execOraaDir d s
  | .addaDir d => Sys2Proof.Machine.execAddaDir d s
  | .cpxDir d => Sys2Proof.Machine.execCpxDir d s
  | .ldsDir d => Sys2Proof.Machine.execLdsDir d s
  | .stsDir d => Sys2Proof.Machine.execStsDir d s
  | .subaIdx off => Sys2Proof.Machine.execSubaIdx off s
  | .cmpaIdx off => Sys2Proof.Machine.execCmpaIdx off s
  | .sbcaIdx off => Sys2Proof.Machine.execSbcaIdx off s
  | .andaIdx off => Sys2Proof.Machine.execAndaIdx off s
  | .bitaIdx off => Sys2Proof.Machine.execBitaIdx off s
  | .ldaaIdx off => Sys2Proof.Machine.execLdaaIdx off s
  | .staaIdx off => Sys2Proof.Machine.execStaaIdx off s
  | .eoraIdx off => Sys2Proof.Machine.execEoraIdx off s
  | .adcaIdx off => Sys2Proof.Machine.execAdcaIdx off s
  | .oraaIdx off => Sys2Proof.Machine.execOraaIdx off s
  | .addaIdx off => Sys2Proof.Machine.execAddaIdx off s
  | .cpxIdx off => Sys2Proof.Machine.execCpxIdx off s
  | .jsrIdx off => Sys2Proof.Machine.execJsrIdx off s
  | .ldsIdx off => Sys2Proof.Machine.execLdsIdx off s
  | .stsIdx off => Sys2Proof.Machine.execStsIdx off s
  | .subaExt w => Sys2Proof.Machine.execSubaExt w s
  | .cmpaExt w => Sys2Proof.Machine.execCmpaExt w s
  | .sbcaExt w => Sys2Proof.Machine.execSbcaExt w s
  | .andaExt w => Sys2Proof.Machine.execAndaExt w s
  | .bitaExt w => Sys2Proof.Machine.execBitaExt w s
  | .ldaaExt w => Sys2Proof.Machine.execLdaaExt w s
  | .staaExt w => Sys2Proof.Machine.execStaaExt w s
  | .eoraExt w => Sys2Proof.Machine.execEoraExt w s
  | .adcaExt w => Sys2Proof.Machine.execAdcaExt w s
  | .oraaExt w => Sys2Proof.Machine.execOraaExt w s
  | .addaExt w => Sys2Proof.Machine.execAddaExt w s
  | .cpxExt w => Sys2Proof.Machine.execCpxExt w s
  | .jsrExt w => Sys2Proof.Machine.execJsrExt w s
  | .ldsExt w => Sys2Proof.Machine.execLdsExt w s
  | .stsExt w => Sys2Proof.Machine.execStsExt w s
  | .subbImm m => Sys2Proof.Machine.execSubbImm m s
  | .cmpbImm m => Sys2Proof.Machine.execCmpbImm m s
  | .sbcbImm m => Sys2Proof.Machine.execSbcbImm m s
  | .andbImm m => Sys2Proof.Machine.execAndbImm m s
  | .bitbImm m => Sys2Proof.Machine.execBitbImm m s
  | .ldabImm m => Sys2Proof.Machine.execLdabImm m s
  | .eorbImm m => Sys2Proof.Machine.execEorbImm m s
  | .adcbImm m => Sys2Proof.Machine.execAdcbImm m s
  | .orabImm m => Sys2Proof.Machine.execOrabImm m s
  | .addbImm m => Sys2Proof.Machine.execAddbImm m s
  | .ldxImm w => Sys2Proof.Machine.execLdxImm w s
  | .subbDir d => Sys2Proof.Machine.execSubbDir d s
  | .cmpbDir d => Sys2Proof.Machine.execCmpbDir d s
  | .sbcbDir d => Sys2Proof.Machine.execSbcbDir d s
  | .andbDir d => Sys2Proof.Machine.execAndbDir d s
  | .bitbDir d => Sys2Proof.Machine.execBitbDir d s
  | .ldabDir d => Sys2Proof.Machine.execLdabDir d s
  | .stabDir d => Sys2Proof.Machine.execStabDir d s
  | .eorbDir d => Sys2Proof.Machine.execEorbDir d s
  | .adcbDir d => Sys2Proof.Machine.execAdcbDir d s
  | .orabDir d => Sys2Proof.Machine.execOrabDir d s
  | .addbDir d => Sys2Proof.Machine.execAddbDir d s
  | .ldxDir d => Sys2Proof.Machine.execLdxDir d s
  | .stxDir d => Sys2Proof.Machine.execStxDir d s
  | .subbIdx off => Sys2Proof.Machine.execSubbIdx off s
  | .cmpbIdx off => Sys2Proof.Machine.execCmpbIdx off s
  | .sbcbIdx off => Sys2Proof.Machine.execSbcbIdx off s
  | .andbIdx off => Sys2Proof.Machine.execAndbIdx off s
  | .bitbIdx off => Sys2Proof.Machine.execBitbIdx off s
  | .ldabIdx off => Sys2Proof.Machine.execLdabIdx off s
  | .stabIdx off => Sys2Proof.Machine.execStabIdx off s
  | .eorbIdx off => Sys2Proof.Machine.execEorbIdx off s
  | .adcbIdx off => Sys2Proof.Machine.execAdcbIdx off s
  | .orabIdx off => Sys2Proof.Machine.execOrabIdx off s
  | .addbIdx off => Sys2Proof.Machine.execAddbIdx off s
  | .ldxIdx off => Sys2Proof.Machine.execLdxIdx off s
  | .stxIdx off => Sys2Proof.Machine.execStxIdx off s
  | .subbExt w => Sys2Proof.Machine.execSubbExt w s
  | .cmpbExt w => Sys2Proof.Machine.execCmpbExt w s
  | .sbcbExt w => Sys2Proof.Machine.execSbcbExt w s
  | .andbExt w => Sys2Proof.Machine.execAndbExt w s
  | .bitbExt w => Sys2Proof.Machine.execBitbExt w s
  | .ldabExt w => Sys2Proof.Machine.execLdabExt w s
  | .stabExt w => Sys2Proof.Machine.execStabExt w s
  | .eorbExt w => Sys2Proof.Machine.execEorbExt w s
  | .adcbExt w => Sys2Proof.Machine.execAdcbExt w s
  | .orabExt w => Sys2Proof.Machine.execOrabExt w s
  | .addbExt w => Sys2Proof.Machine.execAddbExt w s
  | .ldxExt w => Sys2Proof.Machine.execLdxExt w s
  | .stxExt w => Sys2Proof.Machine.execStxExt w s

end Sys2Proof.Machine
end

