-- ==== Sys2Proof/Machine/Fetch.lean ====
section
/-! DEFINITION. Fetching an instruction's bytes (R69, R70) and running the instruction they decode to. -/

namespace Sys2Proof.Machine

/-- How many bytes the fetch of an instruction reads: a one-byte instruction reads the byte after it as well, and decoding
discards it (R69, R70, R101); after an unassigned opcode nothing more is read (R112). -/
def fetchCount (opcode : Byte) : Nat :=
  match opcodeCell opcode with
  | .unassigned => 1
  | .inh _ => 2
  | .byte _ => 2
  | .word _ => 3

/-- The instruction bytes at PC, read in ascending order (R69). -/
def State.fetchBytes (s : State) : List Byte × State :=
  let op := s.read s.cpu.pc
  let b1 := op.2.read (s.cpu.pc + 1)
  let b2 := b1.2.read (s.cpu.pc + 2)
  match fetchCount op.1 with
  | 1 => ([op.1], op.2)
  | 2 => ([op.1, b1.1], b1.2)
  | _ => ([op.1, b1.1, b2.1], b2.2)

/-- An NMI edge latched since the latch, which held `older`, was cleared is taken for one that fell while the instruction
executes: SWI consumes it (R332, R374), every other instruction leaves it to the end of the step (R365). -/
def State.noteDuring (s : State) (older : Bool) : State :=
  { s.restoreNmi older with env := { s.env with nmiDuring := s.env.nmiDuring || s.sys.nmiLatch } }

/-- The fetch of an instruction.  It is the first part of its execution (R362: the first cycle is that of the opcode), so
that an NMI edge which a device makes in a cycle stolen before one of its reads is one during the instruction (log 24), and
an IRQ pulse during the instruction meets the I that it finds (R367, log 22). -/
def State.fetch (s : State) : List Byte × State :=
  let r := s.clearNmi.fetchBytes
  (r.1, (r.2.noteDuring s.sys.nmiLatch).pulseDuring)

/-- The refusal of bytes that are no instruction (R112, D10); the fetch reads as many bytes as the opcode asks for, so
that they are never too few. -/
def fetchRefusal (e : DecodeError) (address : Word) : Refusal :=
  match e with
  | .undefinedOpcode opcode => .undefinedOpcode opcode address
  | .truncated => .undefinedOpcode 0 address

/-- The end of a step that ran an instruction. -/
def settleOutcome (o : Host.Outcome State Fault Refusal) : Host.Outcome State Fault Refusal :=
  match o with
  | .next s => .next s.settle
  | .fault r => .fault r
  | .refused r => .refused r

/-- Fetch, decode and execute one instruction. -/
def State.runInstruction (s : State) : Host.Outcome State Fault Refusal :=
  match decode s.fetch.1 with
  | .ok (i, _) => settleOutcome (exec i s.fetch.2)
  | .error e => .refused (fetchRefusal e s.cpu.pc)

/-- The cell of an address that is memory is given a byte: how a program is placed. -/
def System.place (y : System) (a : Word) (v : Byte) : System :=
  match y.region a with
  | .ram c => { y with ram := y.ram.write c v }
  | .rom c => { y with rom := y.rom.write c v }
  | .pia _ _ => y
  | .acia _ _ => y
  | .unpopulated => y

/-- Bytes placed from an address on. -/
def System.placeBytes (y : System) (a : Word) (l : List Byte) : System :=
  match l with
  | [] => y
  | v :: rest => (y.place a v).placeBytes (a + 1) rest

/-- A program loaded from outside: bytes with the addresses they start at (log 4). -/
def System.load (y : System) (l : List (Word × List Byte)) : System := l.foldl (fun z p => z.placeBytes p.1 p.2) y

/-- Three bytes placed at an address. -/
def System.place3 (y : System) (a : Word) (b0 b1 b2 : Byte) : System :=
  ((y.place a b0).place (a + 1) b1).place (a + 2) b2

/-- Three bytes placed where they read back; on a board whose three addresses are not three cells of memory, on flat
memory instead. -/
def System.placeProgram (y : System) (a : Word) (b0 b1 b2 : Byte) : System :=
  let t := y.place3 a b0 b1 b2
  if t.cell a == some b0 && t.cell (a + 1) == some b1 && t.cell (a + 2) == some b2 then t
  else { y with board := { y.board with map := flatMap } }.place3 a b0 b1 b2

/-- Nothing keeps the next step from fetching: no event to come, no line active, a pending interrupt held off. -/
def State.readyToFetch (s : State) : State :=
  { s with ctl := { s.ctl with runState := .running,
                               haltHoldoff := s.ctl.haltHoldoff || s.takesNmi || s.takesIrq }
           sys := { s.sys with resCut := none, steals := [] }
           env := { s.env with schedule := [], resLow := false, tscHigh := false, haltLow := false,
                               nmiDuring := false, irqDuring := false } }

end Sys2Proof.Machine
end

