-- ==== Sys2Proof/Machine/Step.lean ====
section
/-! DEFINITION. One step: the environment's turn, the boundary, and at most one instruction. -/

namespace Sys2Proof.Machine

/-- One step (R362): the next slot of events, the tests of the boundary, then a sequence, an idle state or one
instruction. -/
def step (s : State) : Host.Outcome State Fault Refusal :=
  match s.pollEnvironment with
  | .error r => .refused r
  | .ok t =>
    match t.boundary with
    | .over u => .next u.settle
    | .execute u => u.runInstruction

/-- The instruction of `nbits` bits `w` (zeros above them) placed at PC, in a machine whose next step fetches it (log 4:
loading a program from outside). -/
def State.withFetchWord (s : State) (nbits w : Nat) : State :=
  let v := w % 2 ^ nbits
  let t := s.readyToFetch
  { t with sys := t.sys.placeProgram t.cpu.pc (BitVec.ofNat 8 v) (BitVec.ofNat 8 (v / 256))
                    (BitVec.ofNat 8 (v / 65536)) }

end Sys2Proof.Machine
end

