-- ==== Sys2Proof/Machine/Assembler.lean ====
section
/-! DEFINITION. The cross-assembler: source statements, expressions, the choice of addressing mode, directives, and the
object bytes with their addresses (R111, R114 to R119; what the spec leaves open of it is log 42). -/

namespace Sys2Proof

/-- A field of a source line. -/
abbrev Chars := List Char

/-- Why the assembler rejects a program. -/
inductive AsmError where
  /-- a statement without its operator (R114) -/
  | missingOperator
  /-- not a label of R114, a label where none may stand, or none where one must (R117) -/
  | badLabel
  | duplicateLabel
  /-- error 207: no such operator -/
  | undefinedOperator
  /-- error 208: branch out of range -/
  | branchOutOfRange
  /-- error 210: an 8-bit operand outside 0 to 255 -/
  | byteOverflow
  /-- a 16-bit operand outside 0 to 65,535 -/
  | wordOverflow
  | undefinedSymbol
  | badExpression
  /-- an operand form the operator does not have (R115) -/
  | badOperand
  | divisionByZero
  /-- no choice of modes was found that is the one of R111 for the addresses it leads to (log 42) -/
  | unsettledModes
deriving DecidableEq, Repr

/-! ### Expressions (R116) -/

inductive AsmTerm where
  | number (n : Nat)
  | symbol (name : Chars)
  /-- the location counter -/
  | here
deriving DecidableEq, Repr

inductive AsmSign where
  | plus | minus | times | divide
deriving DecidableEq, Repr

/-- Terms joined by operators, kept in their order: there is no precedence. -/
structure AsmExpr where
  first : AsmTerm
  rest : List (AsmSign × AsmTerm)
deriving DecidableEq, Repr

def isUpperLetter (c : Char) : Bool := decide (65 ≤ c.toNat) && decide (c.toNat ≤ 90)

def isDecimalDigit (c : Char) : Bool := decide (48 ≤ c.toNat) && decide (c.toNat ≤ 57)

/-- The value of a digit of base `base`. -/
def digitValue (base : Nat) (c : Char) : Option Nat :=
  let v := if isDecimalDigit c then c.toNat - 48 else if isUpperLetter c then c.toNat - 55 else base
  if v < base then some v else none

/-- The digits at the front of a text, after `acc`. -/
def scanDigits (base acc : Nat) (t : Chars) : Nat × Chars :=
  match t with
  | [] => (acc, [])
  | c :: rest =>
    match digitValue base c with
    | some v => scanDigits base (acc * base + v) rest
    | none => (acc, c :: rest)

/-- A number of at least one digit. -/
def scanNumber (base : Nat) (t : Chars) : Except AsmError (AsmTerm × Chars) :=
  match t with
  | [] => .error .badExpression
  | c :: _ =>
    match digitValue base c with
    | some _ => .ok (.number (scanDigits base 0 t).1, (scanDigits base 0 t).2)
    | none => .error .badExpression

def isLabelChar (c : Char) : Bool := isUpperLetter c || isDecimalDigit c

/-- A term: `$` hexadecimal, `@` octal, `%` binary, `'` one ASCII character, decimal digits, a symbol, or `*`.  A character
outside the character set 20 to 5F is accepted after `'` with its own code, and an expression may not begin with a sign: a
leading `+` or `-` is no term (DESIGN CHOICEs, log 42). -/
def scanTerm (t : Chars) : Except AsmError (AsmTerm × Chars) :=
  match t with
  | '$' :: rest => scanNumber 16 rest
  | '@' :: rest => scanNumber 8 rest
  | '%' :: rest => scanNumber 2 rest
  | '\'' :: c :: rest => .ok (.number c.toNat, rest)
  | '*' :: rest => .ok (.here, rest)
  | c :: rest =>
    if isDecimalDigit c then scanNumber 10 t
    else if isUpperLetter c then .ok (.symbol (c :: rest.takeWhile isLabelChar), rest.dropWhile isLabelChar)
    else .error .badExpression
  | [] => .error .badExpression

def scanSign (c : Char) : Option AsmSign :=
  if c = '+' then some .plus
  else if c = '-' then some .minus
  else if c = '*' then some .times
  else if c = '/' then some .divide
  else none

/-- The operators and terms after the first, to the end of the text; `fuel` bounds their number. -/
def scanRest (fuel : Nat) (t : Chars) : Except AsmError (List (AsmSign × AsmTerm)) :=
  match fuel, t with
  | _, [] => .ok []
  | 0, _ :: _ => .error .badExpression
  | n + 1, c :: rest =>
    match scanSign c with
    | none => .error .badExpression
    | some sign =>
      match scanTerm rest with
      | .error e => .error e
      | .ok (term, after) => (scanRest n after).map ((sign, term) :: ·)

/-- A whole field read as an expression. -/
def parseExpr (t : Chars) : Except AsmError AsmExpr :=
  match scanTerm t with
  | .error e => .error e
  | .ok (first, after) => (scanRest after.length after).map (⟨first, ·⟩)

/-- Labels and what they stand for. -/
abbrev Symbols := List (Chars × Int)

def Symbols.find (s : Symbols) (name : Chars) : Option Int := (List.find? (fun p => p.1 == name) s).map Prod.snd

def AsmTerm.eval (symbols : Symbols) (location : Int) : AsmTerm → Except AsmError Int
  | .number n => .ok n
  | .here => .ok location
  | .symbol name =>
    match symbols.find name with
    | some v => .ok v
    | none => .error .undefinedSymbol

/-- One operation; every fractional result is truncated (R116). -/
def AsmSign.apply (sign : AsmSign) (a b : Int) : Except AsmError Int :=
  match sign with
  | .plus => .ok (a + b)
  | .minus => .ok (a - b)
  | .times => .ok (a * b)
  | .divide => if b = 0 then .error .divisionByZero else .ok (a.tdiv b)

/-- From left to right (R116).  The arithmetic is that of the integers, without a width: intermediate results and values of
symbols may lie below 0 or above 65,535, and only the operand of a statement is checked for its range (DESIGN CHOICE,
log 42). -/
def evalRest (symbols : Symbols) (location acc : Int) (l : List (AsmSign × AsmTerm)) : Except AsmError Int :=
  match l with
  | [] => .ok acc
  | (sign, term) :: rest =>
    match term.eval symbols location with
    | .error e => .error e
    | .ok v =>
      match sign.apply acc v with
      | .error e => .error e
      | .ok w => evalRest symbols location w rest

def AsmExpr.eval (e : AsmExpr) (symbols : Symbols) (location : Int) : Except AsmError Int :=
  match e.first.eval symbols location with
  | .error err => .error err
  | .ok v => evalRest symbols location v e.rest

/-! ### Operators and operands (R111, R115) -/

/-- What an operator needs to become an instruction. -/
inductive AsmOperator where
  | inherent (i : Instr)
  | dual (op : DualOp)
  | store
  | single (op : RmwOp)
  | push
  | pull
  | wide (f : Operand16 → Instr)
  | wideStore (f : Ea → Instr)
  | jump (f : Ptr → Instr)
  | branch (f : Byte → Instr)

/-- The 72 operators of the manual (R103, R115), those that take an accumulator without its letter. -/
def asmOperators : List (String × AsmOperator) :=
  [("ABA", .inherent .aba), ("ADC", .dual .adc), ("ADD", .dual .add), ("AND", .dual .and), ("ASL", .single .asl),
   ("ASR", .single .asr), ("BCC", .branch .bcc), ("BCS", .branch .bcs), ("BEQ", .branch .beq), ("BGE", .branch .bge),
   ("BGT", .branch .bgt), ("BHI", .branch .bhi), ("BIT", .dual .bit), ("BLE", .branch .ble), ("BLS", .branch .bls),
   ("BLT", .branch .blt), ("BMI", .branch .bmi), ("BNE", .branch .bne), ("BPL", .branch .bpl), ("BRA", .branch .bra),
   ("BSR", .branch .bsr), ("BVC", .branch .bvc), ("BVS", .branch .bvs), ("CBA", .inherent .cba), ("CLC", .inherent .clc),
   ("CLI", .inherent .cli), ("CLR", .single .clr), ("CLV", .inherent .clv), ("CMP", .dual .cmp), ("COM", .single .com),
   ("CPX", .wide .cpx), ("DAA", .inherent .daa), ("DEC", .single .dec), ("DES", .inherent .des), ("DEX", .inherent .dex),
   ("EOR", .dual .eor), ("INC", .single .inc), ("INS", .inherent .ins), ("INX", .inherent .inx), ("JMP", .jump .jmp),
   ("JSR", .jump .jsr), ("LDA", .dual .lda), ("LDS", .wide .lds), ("LDX", .wide .ldx), ("LSR", .single .lsr),
   ("NEG", .single .neg), ("NOP", .inherent .nop), ("ORA", .dual .ora), ("PSH", .push), ("PUL", .pull),
   ("ROL", .single .rol), ("ROR", .single .ror), ("RTI", .inherent .rti), ("RTS", .inherent .rts),
   ("SBA", .inherent .sba), ("SBC", .dual .sbc), ("SEC", .inherent .sec), ("SEI", .inherent .sei),
   ("SEV", .inherent .sev), ("STA", .store), ("STS", .wideStore .sts), ("STX", .wideStore .stx), ("SUB", .dual .sub),
   ("SWI", .inherent .swi), ("TAB", .inherent .tab), ("TAP", .inherent .tap), ("TBA", .inherent .tba),
   ("TPA", .inherent .tpa), ("TST", .single .tst), ("TSX", .inherent .tsx), ("TXS", .inherent .txs),
   ("WAI", .inherent .wai)]

def findOperator (name : Chars) : Option AsmOperator :=
  (List.find? (fun p => p.1.toList == name) asmOperators).map Prod.snd

/-- An accumulator named by its letter. -/
def parseAcc (t : Chars) : Option Acc :=
  if t = ['A'] then some .a else if t = ['B'] then some .b else none

/-- The operator names an accumulator. -/
def AsmOperator.takesAcc : AsmOperator → Bool
  | .dual _ => true
  | .store => true
  | .single _ => true
  | .push => true
  | .pull => true
  | .inherent _ => false
  | .wide _ => false
  | .wideStore _ => false
  | .jump _ => false
  | .branch _ => false

/-- The operator field: three letters, or three letters and the accumulator written close to them (R115). -/
def parseOperator (name : Chars) : Option (AsmOperator × Option Acc) :=
  match findOperator name with
  | some op => some (op, none)
  | none =>
    match findOperator (name.take 3), parseAcc (name.drop 3) with
    | some op, some r => if op.takesAcc then some (op, some r) else none
    | _, _ => none

/-- The forms of an operand field (R115). -/
inductive AsmOperand where
  | immediate (e : AsmExpr)
  | indexed (e : AsmExpr)
  | plain (e : AsmExpr)
deriving DecidableEq, Repr

/-- The expression 0, the offset of the operand `X` (R115). -/
def AsmExpr.zero : AsmExpr := { first := .number 0, rest := [] }

/-- A field cut at its commas; the character after an apostrophe is no separator. -/
def splitCommas (t : Chars) : List Chars :=
  match t with
  | [] => [[]]
  | '\'' :: c :: rest =>
    match splitCommas rest with
    | [] => [['\'', c]]
    | piece :: pieces => ('\'' :: c :: piece) :: pieces
  | c :: rest =>
    if c = ',' then [] :: splitCommas rest
    else
      match splitCommas rest with
      | [] => [[c]]
      | piece :: pieces => (c :: piece) :: pieces

/-- An operand field: `#` selects the immediate mode, `X` the indexed mode (R111, R115). -/
def parseOperand (t : Chars) : Except AsmError AsmOperand :=
  match t with
  | '#' :: rest => (parseExpr rest).map .immediate
  | _ =>
    if t = ['X'] then .ok (.indexed .zero)
    else
      match splitCommas t with
      | [e] => (parseExpr e).map .plain
      | [e, x] => if x = ['X'] then (parseExpr e).map .indexed else .error .badOperand
      | _ => .error .badOperand

/-- An operand with its expression evaluated. -/
inductive AsmValue where
  | immediate (v : Int)
  | indexed (v : Int)
  | plain (v : Int)
deriving DecidableEq, Repr

/-- An 8-bit operand (error 210). -/
def asmByte (v : Int) : Except AsmError Byte :=
  if 0 ≤ v ∧ v ≤ 255 then .ok (BitVec.ofInt 8 v) else .error .byteOverflow

/-- A 16-bit operand. -/
def asmWord (v : Int) : Except AsmError Word :=
  if 0 ≤ v ∧ v ≤ 65535 then .ok (BitVec.ofInt 16 v) else .error .wordOverflow

/-- Direct mode for an operand in the range 0 to 255, else extended (R111). -/
def asmDirectOrExtended (v : Int) : Except AsmError Ea :=
  if 0 ≤ v ∧ v ≤ 255 then (asmByte v).map .dir else (asmWord v).map .ext

/-- A memory operand of an instruction that has the direct mode. -/
def asmEa : AsmValue → Except AsmError Ea
  | .immediate _ => .error .badOperand
  | .indexed v => (asmByte v).map .idx
  | .plain v => asmDirectOrExtended v

/-- A memory operand of an instruction that has no direct mode: extended even in the range 0 to 255 (R111). -/
def asmPtr : AsmValue → Except AsmError Ptr
  | .immediate _ => .error .badOperand
  | .indexed v => (asmByte v).map .idx
  | .plain v => (asmWord v).map .ext

def asmOperand8 : AsmValue → Except AsmError Operand8
  | .immediate v => (asmByte v).map .imm
  | .indexed v => (asmEa (.indexed v)).map .mem
  | .plain v => (asmEa (.plain v)).map .mem

def asmOperand16 : AsmValue → Except AsmError Operand16
  | .immediate v => (asmWord v).map .imm
  | .indexed v => (asmEa (.indexed v)).map .mem
  | .plain v => (asmEa (.plain v)).map .mem

/-- The offset of a branch at `location`: -127 to +127 from the address of the next instruction (R115, error 208, D9). -/
def asmBranch (v location : Int) : Except AsmError Byte :=
  let d := v - (location + 2)
  if -127 ≤ d ∧ d ≤ 127 then .ok (BitVec.ofInt 8 d) else .error .branchOutOfRange

/-- The instruction of an operator, its accumulator and its operand, at an address (R111, R115). -/
def assembleInstr (op : AsmOperator) (acc : Option Acc) (operand : Option AsmValue) (location : Int) :
    Except AsmError Instr :=
  match op, acc, operand with
  | .inherent i, none, none => .ok i
  | .dual o, some r, some v => (asmOperand8 v).map (Instr.dual o r)
  | .store, some r, some v => (asmEa v).map (Instr.sta r)
  | .single o, some r, none => .ok (.rmwAcc o r)
  | .single o, none, some v => (asmPtr v).map (Instr.rmwMem o)
  | .push, some r, none => .ok (.psh r)
  | .pull, some r, none => .ok (.pul r)
  | .wide f, none, some v => (asmOperand16 v).map f
  | .wideStore f, none, some v => (asmEa v).map f
  | .jump f, none, some v => (asmPtr v).map f
  | .branch f, none, some (.plain v) => (asmBranch v location).map f
  | _, _, _ => .error .badOperand

/-! ### Statements (R114, R117) -/

/-- The options of OPT (R117). -/
inductive AsmOption where
  | list | slist | nolist
  | symbol | nosymbol
  | generate | nogenerate
  | error | serror | noerror
  | page | nopage
  | tab | notab
  | db8 | db10 | db16
  | mem | nomem
deriving DecidableEq, Repr

def asmOptions : List (String × AsmOption) :=
  [("LIST", .list), ("SLIST", .slist), ("NOLIST", .nolist), ("SYMBOL", .symbol), ("NOSYMBOL", .nosymbol),
   ("GENERATE", .generate), ("NOGENERATE", .nogenerate), ("ERROR", .error), ("SERROR", .serror), ("NOERROR", .noerror),
   ("PAGE", .page), ("NOPAGE", .nopage), ("TAB", .tab), ("NOTAB", .notab), ("DB8", .db8), ("DB10", .db10),
   ("DB16", .db16), ("MEM", .mem), ("NOMEM", .nomem)]

/-- An option by its name; another word is none (the short forms of R117 are not given: DESIGN CHOICE, log 42). -/
def findOption (name : Chars) : Option AsmOption := (List.find? (fun p => p.1.toList == name) asmOptions).map Prod.snd

/-- A statement that matters only to the listing: no code and no address (R114, R117). -/
inductive ListingDirective where
  | comment
  | mon
  /-- the program's name and page heading: operand and comment as one text -/
  | nam (text : Chars)
  | opt (options : List AsmOption)
  | page
  | spc (e : AsmExpr)
deriving DecidableEq, Repr

/-- What a statement asks for. -/
inductive AsmBody where
  | instruction (op : AsmOperator) (acc : Option Acc) (operand : Option AsmOperand)
  | fcb (items : List (Option AsmExpr))
  | fdb (items : List (Option AsmExpr))
  | fcc (bytes : List Byte)
  | org (e : AsmExpr)
  | rmb (e : AsmExpr)
  | equ (e : AsmExpr)
  | finish
  | listing (d : ListingDirective)

/-- A source line with its number. -/
structure AsmStatement where
  number : Nat
  source : Chars
  label : Option Chars
  body : AsmBody

/-- A separator between fields: space or horizontal tab (R116).  The source comes cut into its lines, so that a carriage
return separates nothing inside one (DESIGN CHOICE, log 42). -/
def isBlank (c : Char) : Bool := c == ' ' || c == '\t'

/-- A field and what follows it; a blank after an apostrophe belongs to the field. -/
def takeField (t : Chars) : Chars × Chars :=
  match t with
  | [] => ([], [])
  | '\'' :: c :: rest => ('\'' :: c :: (takeField rest).1, (takeField rest).2)
  | c :: rest => if isBlank c then ([], c :: rest) else (c :: (takeField rest).1, (takeField rest).2)

def skipBlanks (t : Chars) : Chars := t.dropWhile isBlank

/-- A label: up to six letters and digits, a letter first, not A, B or X (R114). -/
def isLabel (t : Chars) : Bool :=
  match t with
  | [] => false
  | c :: rest => isUpperLetter c && rest.all isLabelChar && decide (t.length ≤ 6) && t != ['A'] && t != ['B'] && t != ['X']

/-- A void item stands for zero (R117). -/
def parseItem (t : Chars) : Except AsmError (Option AsmExpr) := if t.isEmpty then .ok none else (parseExpr t).map some

def parseItems (l : List Chars) : Except AsmError (List (Option AsmExpr)) :=
  match l with
  | [] => .ok []
  | t :: rest =>
    match parseItem t with
    | .error e => .error e
    | .ok i => (parseItems rest).map (i :: ·)

/-- The 7-bit ASCII code of a character; of one outside the character set 20 to 5F, the low seven bits of its code (DESIGN
CHOICE, log 42). -/
def asciiByte (c : Char) : Byte := BitVec.ofNat 8 (c.toNat % 128)

/-- A text of exactly `n` bytes, padded with spaces (R117). -/
def padText (n : Nat) (t : Chars) : List Byte := ((t ++ List.replicate n ' ').take n).map asciiByte

/-- FCC: `count,text`, or a text between two equal delimiters (R117).  A leading decimal digit is always the start of a count,
any other character is a delimiter (DESIGN CHOICE, log 42). -/
def parseFcc (t : Chars) : Except AsmError (List Byte) :=
  match t with
  | [] => .error .badOperand
  | c :: rest =>
    if isDecimalDigit c then
      match scanDigits 10 0 t with
      | (n, ',' :: text) => if n ≤ 255 then .ok (padText n text) else .error .byteOverflow
      | _ => .error .badOperand
    else if rest.contains c then .ok ((rest.takeWhile (· != c)).map asciiByte)
    else .error .badOperand

/-- The operand of an operator that may name its accumulator as an operand: `LDA A #5`, `TST B`, `CLR FLAG` (R115). -/
def parseAccOperand (op : AsmOperator) (acc : Option Acc) (t : Chars) : Option Acc × Chars :=
  match acc with
  | some r => (some r, t)
  | none =>
    if op.takesAcc then
      match parseAcc (takeField t).1 with
      | some r => (some r, skipBlanks (takeField t).2)
      | none => (none, t)
    else (none, t)

/-- An operator needs no operand field once its accumulator is named; what follows is comment (R114). -/
def AsmOperator.standsAlone (op : AsmOperator) (acc : Option Acc) : Bool :=
  match op with
  | .inherent _ => true
  | .push => true
  | .pull => true
  | .single _ => acc.isSome
  | .dual _ => false
  | .store => false
  | .wide _ => false
  | .wideStore _ => false
  | .jump _ => false
  | .branch _ => false

/-- An instruction statement. -/
def parseInstruction (op : AsmOperator) (acc : Option Acc) (t : Chars) : Except AsmError AsmBody :=
  let p := parseAccOperand op acc t
  if op.standsAlone p.1 then .ok (.instruction op p.1 none)
  else (parseOperand (takeField p.2).1).map fun o => .instruction op p.1 (some o)

/-- The expression mentions the location counter. -/
def AsmExpr.usesHere (e : AsmExpr) : Bool := e.first == .here || e.rest.any (·.2 == .here)

/-- The operand of EQU and ORG, which may not be `*` (R117); every expression that mentions `*` is taken to be barred by
that, not the bare `*` alone (DESIGN CHOICE, log 42). -/
def parseFixed (t : Chars) : Except AsmError AsmExpr :=
  match parseExpr t with
  | .error e => .error e
  | .ok e => if e.usesHere then .error .badExpression else .ok e

/-- The body of a statement from its operator field and the text after it (R117).  The text of NAM may hold any character, one
outside the character set 20 to 5F too (DESIGN CHOICE, log 42). -/
def parseBody (name t : Chars) : Except AsmError AsmBody :=
  let field := (takeField t).1
  if name = "FCB".toList then (parseItems (splitCommas field)).map .fcb
  else if name = "FDB".toList then (parseItems (splitCommas field)).map .fdb
  else if name = "FCC".toList then (parseFcc t).map .fcc
  else if name = "ORG".toList then (parseFixed field).map .org
  else if name = "RMB".toList then (parseExpr field).map .rmb
  else if name = "EQU".toList then (parseFixed field).map .equ
  else if name = "END".toList then .ok .finish
  else if name = "MON".toList then .ok (.listing .mon)
  else if name = "NAM".toList then .ok (.listing (.nam t))
  else if name = "OPT".toList then .ok (.listing (.opt ((splitCommas field).filterMap findOption)))
  else if name = "PAGE".toList then .ok (.listing .page)
  else if name = "SPC".toList then (parseExpr field).map fun e => .listing (.spc e)
  else
    match parseOperator name with
    | some (op, acc) => parseInstruction op acc t
    | none => .error .undefinedOperator

/-- The directive may have a label; EQU must have one (R117). -/
def AsmBody.labelFits (body : AsmBody) (label : Option Chars) : Bool :=
  match body with
  | .equ _ => label.isSome
  | .org _ => label.isNone
  | .finish => label.isNone
  | .listing _ => label.isNone
  | .instruction _ _ _ => true
  | .fcb _ => true
  | .fdb _ => true
  | .fcc _ => true
  | .rmb _ => true

/-- A source line and its number; a comment line asks for nothing (R114).  A comment line and the comment of a statement may
hold any character, one outside the character set 20 to 5F too (DESIGN CHOICE, log 42). -/
def parseLine (number : Nat) (line : Chars) : Except AsmError AsmStatement :=
  match line with
  | '*' :: _ => .ok { number := number, source := line, label := none, body := .listing .comment }
  | _ =>
    let label := (takeField line).1
    let t := skipBlanks (takeField line).2
    let name := (takeField t).1
    if name.isEmpty then .error .missingOperator
    else if !label.isEmpty && !isLabel label then .error .badLabel
    else
      match parseBody name (skipBlanks (takeField t).2) with
      | .error e => .error e
      | .ok body =>
        let l := if label.isEmpty then none else some label
        if body.labelFits l then .ok { number := number, source := line, label := l, body := body }
        else .error .badLabel

/-- Source lines, the first of them line `number`. -/
def parseLines (number : Nat) (l : List Chars) : Except AsmError (List AsmStatement) :=
  match l with
  | [] => .ok []
  | line :: rest =>
    match parseLine number line with
    | .error e => .error e
    | .ok s => (parseLines (number + 1) rest).map (s :: ·)

/-! ### Two passes -/

def AsmOperand.expr : AsmOperand → AsmExpr
  | .immediate e => e
  | .indexed e => e
  | .plain e => e

/-- An operand with the value of its expression. -/
def AsmOperand.value (o : AsmOperand) (v : Int) : AsmValue :=
  match o with
  | .immediate _ => .immediate v
  | .indexed _ => .indexed v
  | .plain _ => .plain v

/-- The value of an expression, or none. -/
def AsmExpr.value? (e : AsmExpr) (symbols : Symbols) (location : Int) : Option Int :=
  match e.eval symbols location with
  | .ok v => some v
  | .error _ => none

/-- An operand with a value that has the same mode and always fits, for the first pass, where only the length counts: a
plain operand in the range 0 to 255 is direct, another one, and one whose value is not known yet, extended (R111). -/
def AsmOperand.sample (o : AsmOperand) (op : AsmOperator) (v : Option Int) (location : Int) : AsmValue :=
  match o, op with
  | .immediate _, _ => .immediate 0
  | .indexed _, _ => .indexed 0
  | .plain _, .branch _ => .plain (location + 2)
  | .plain _, _ => .plain (if v.any fun n => 0 ≤ n ∧ n ≤ 255 then 0 else 256)

/-- The bytes of one item of FCB. -/
def fcbItem (symbols : Symbols) (location : Int) (i : Option AsmExpr) : Except AsmError (List Byte) :=
  match i with
  | none => .ok [0x00]
  | some e =>
    match e.eval symbols location with
    | .error err => .error err
    | .ok v => (asmByte v).map ([·])

/-- The bytes of one item of FDB, high byte first. -/
def fdbItem (symbols : Symbols) (location : Int) (i : Option AsmExpr) : Except AsmError (List Byte) :=
  match i with
  | none => .ok [0x00, 0x00]
  | some e =>
    match e.eval symbols location with
    | .error err => .error err
    | .ok v => (asmWord v).map fun w => [highByte w, lowByte w]

def itemBytes (f : Option AsmExpr → Except AsmError (List Byte)) (l : List (Option AsmExpr)) :
    Except AsmError (List Byte) :=
  match l with
  | [] => .ok []
  | i :: rest =>
    match f i with
    | .error e => .error e
    | .ok b => (itemBytes f rest).map (b ++ ·)

/-- A statement with the address the first pass gave it. -/
structure Placed where
  location : Int
  statement : AsmStatement

/-- The length in bytes of a statement, in the first pass: `known` holds the symbols defined so far and, after them, those
of the pass before. -/
def AsmBody.size (b : AsmBody) (symbols known : Symbols) (location : Int) : Except AsmError Int :=
  match b with
  | .instruction op acc operand =>
    match assembleInstr op acc (operand.map fun o => o.sample op (o.expr.value? known location) location) location with
    | .error e => .error e
    | .ok i => .ok i.length
  | .fcb items => .ok items.length
  | .fdb items => .ok (2 * items.length)
  | .fcc bytes => .ok bytes.length
  | .rmb e => e.eval symbols location
  | .org _ => .ok 0
  | .equ _ => .ok 0
  | .finish => .ok 0
  | .listing _ => .ok 0

/-- What the first pass leaves: symbols, the EQUs it could not evaluate in the order of the source, and the placed
statements. -/
structure FirstPass where
  symbols : Symbols
  pending : List (Chars × AsmExpr × Int)
  placed : List Placed

/-- Define a label. -/
def Symbols.define (s : Symbols) (label : Option Chars) (v : Int) : Except AsmError Symbols :=
  match label with
  | none => .ok s
  | some name =>
    match s.find name with
    | some _ => .error .duplicateLabel
    | none => .ok ((name, v) :: s)

/-- An EQU in the first pass: defined at once, or left for the end of the pass (R117: one level of forward reference).  Its
value is an integer of any size (DESIGN CHOICE, log 42; see `evalRest`). -/
def FirstPass.equ (p : FirstPass) (label : Option Chars) (e : AsmExpr) (location : Int) : Except AsmError FirstPass :=
  match e.eval p.symbols location, label with
  | .ok v, _ => (p.symbols.define label v).map fun s => { p with symbols := s }
  | .error .undefinedSymbol, some name => .ok { p with pending := p.pending ++ [(name, e, location)] }
  | .error err, _ => .error err

/-- The first pass, to END or the end of the text (R117); `known` holds the symbols of the pass before.  DESIGN CHOICEs
(log 42): statements after END, MON or not, are dropped without an error; statements after MON with no END before it are
assembled; a symbol of ORG or RMB that is defined only further on is the error `undefinedSymbol`; a location counter that
ORG or RMB takes out of 0 to 65,535 is no error. -/
def firstPass (known : Symbols) (l : List AsmStatement) (location : Int) (p : FirstPass) : Except AsmError FirstPass :=
  match l with
  | [] => .ok p
  | s :: rest =>
    let q : FirstPass := { p with placed := p.placed ++ [{ location := location, statement := s }] }
    match s.body with
    | .finish => .ok q
    | .equ e =>
      match q.equ s.label e location with
      | .error err => .error err
      | .ok r => firstPass known rest location r
    | .org e =>
      match e.eval p.symbols location with
      | .error err => .error err
      | .ok v => firstPass known rest v q
    | body =>
      match p.symbols.define s.label location, body.size p.symbols (p.symbols ++ known) location with
      | .error err, _ => .error err
      | .ok _, .error err => .error err
      | .ok symbols, .ok n => firstPass known rest (location + n) { q with symbols := symbols }

/-- The EQUs that the first pass could not evaluate, in the order of the source: each sees the symbols of the first pass and
the EQUs before it, so that it may point one level forward, and refer back to one that did (R117). -/
def resolvePending (symbols : Symbols) (l : List (Chars × AsmExpr × Int)) : Except AsmError Symbols :=
  match l with
  | [] => .ok symbols
  | (name, e, location) :: rest =>
    match e.eval symbols location with
    | .error err => .error err
    | .ok v =>
      match symbols.define (some name) v with
      | .error err => .error err
      | .ok s => resolvePending s rest

/-- One first pass with the symbols of the pass before: the symbols it defines, and the placed statements. -/
def layout (known : Symbols) (l : List AsmStatement) : Except AsmError (Symbols × List Placed) :=
  match firstPass known l 0 { symbols := [], pending := [], placed := [] } with
  | .error e => .error e
  | .ok p => (resolvePending p.symbols p.pending).map (·, p.placed)

/-- First passes, each with the symbols of the one before, until a pass defines what it was given: then every operand has
the mode of R111 for the value it has in the end.  That the first of them takes an operand it cannot evaluate as extended,
and that a program whose passes never stand still is an error, even where some choice of modes would be right, are DESIGN
CHOICEs (log 42). -/
def settledLayout (fuel : Nat) (known : Symbols) (l : List AsmStatement) : Except AsmError (Symbols × List Placed) :=
  match layout known l with
  | .error e => .error e
  | .ok r =>
    if r.1 = known then .ok r
    else
      match fuel with
      | 0 => .error .unsettledModes
      | n + 1 => settledLayout n r.1 l

/-- The bytes of a placed statement, in the second pass.  In every operand of FCB and FDB, the later ones too, `*` stands for
the address of the statement (DESIGN CHOICE, log 42: R116 says only that it is the assembler's program counter). -/
def Placed.bytes (p : Placed) (symbols : Symbols) : Except AsmError (List Byte) :=
  match p.statement.body with
  | .instruction op acc none => (assembleInstr op acc none p.location).map encode
  | .instruction op acc (some o) =>
    match o.expr.eval symbols p.location with
    | .error e => .error e
    | .ok v => (assembleInstr op acc (some (o.value v)) p.location).map encode
  | .fcb items => itemBytes (fcbItem symbols p.location) items
  | .fdb items => itemBytes (fdbItem symbols p.location) items
  | .fcc bytes => .ok bytes
  | .org _ => .ok []
  | .rmb _ => .ok []
  | .equ _ => .ok []
  | .finish => .ok []
  | .listing _ => .ok []

/-- A source line with its address and its bytes. -/
structure AsmLine where
  location : Int
  statement : AsmStatement
  bytes : List Byte

/-- The address of a line: its location modulo 65,536 (DESIGN CHOICE, log 42). -/
def AsmLine.address (l : AsmLine) : Word := BitVec.ofInt 16 l.location

/-- The second pass. -/
def secondPass (symbols : Symbols) (l : List Placed) : Except AsmError (List AsmLine) :=
  match l with
  | [] => .ok []
  | p :: rest =>
    match p.bytes symbols with
    | .error e => .error e
    | .ok bytes =>
      (secondPass symbols rest).map ({ location := p.location, statement := p.statement, bytes := bytes } :: ·)

/-- The symbols of a program and its lines up to END: without an ORG it starts at 0 (R117).  Every line is read before the
first pass stops at END, so that a line after END which is no legal statement is still an error; the lines are numbered from
1 (DESIGN CHOICEs, log 42). -/
def assembleLines (source : List Chars) : Except AsmError (Symbols × List AsmLine) :=
  match parseLines 1 source with
  | .error e => .error e
  | .ok statements =>
    match settledLayout (statements.length + 1) [] statements with
    | .error e => .error e
    | .ok (symbols, placed) => (secondPass symbols placed).map (symbols, ·)

/-- Object code: addresses and the bytes that start there. -/
abbrev ObjectCode := List (Word × List Byte)

/-- The bytes of the lines that have some (R117: FCB, FCC, FDB and the instructions). -/
def objectCode (l : List AsmLine) : ObjectCode := (l.filter (!·.bytes.isEmpty)).map fun a => (a.address, a.bytes)

/-- The assembler. -/
def assemble (source : List Chars) : Except AsmError ObjectCode := (assembleLines source).map fun r => objectCode r.2

end Sys2Proof
end

