-- ==== Sys2Proof/Machine/Timing.lean ====
section
/-! DEFINITION. The machine cycles the manual prints (R520, R521): information that no rule and no other definition of
the model rests on (log 39). -/

namespace Sys2Proof

/-- The length in cycles of the instruction of each opcode, sixteen a row (R520); 0 where none is assigned. -/
def opcodeCycles : List Nat :=
  [
    0, 2, 0, 0, 0, 0, 2, 2, 4, 4, 2, 2, 2, 2, 2, 2,
    2, 2, 0, 0, 0, 0, 2, 2, 0, 2, 0, 2, 0, 0, 0, 0,
    4, 0, 4, 4, 4, 4, 4, 4, 4, 4, 4, 4, 4, 4, 4, 4,
    4, 4, 4, 4, 4, 4, 4, 4, 0, 5, 0, 10, 0, 0, 9, 12,
    2, 0, 0, 2, 2, 0, 2, 2, 2, 2, 2, 0, 2, 2, 0, 2,
    2, 0, 0, 2, 2, 0, 2, 2, 2, 2, 2, 0, 2, 2, 0, 2,
    7, 0, 0, 7, 7, 0, 7, 7, 7, 7, 7, 0, 7, 7, 4, 7,
    6, 0, 0, 6, 6, 0, 6, 6, 6, 6, 6, 0, 6, 6, 3, 6,
    2, 2, 2, 0, 2, 2, 2, 0, 2, 2, 2, 2, 3, 8, 3, 0,
    3, 3, 3, 0, 3, 3, 3, 4, 3, 3, 3, 3, 4, 0, 4, 5,
    5, 5, 5, 0, 5, 5, 5, 6, 5, 5, 5, 5, 6, 8, 6, 7,
    4, 4, 4, 0, 4, 4, 4, 5, 4, 4, 4, 4, 5, 9, 5, 6,
    2, 2, 2, 0, 2, 2, 2, 0, 2, 2, 2, 2, 0, 0, 3, 0,
    3, 3, 3, 0, 3, 3, 3, 4, 3, 3, 3, 3, 0, 0, 4, 5,
    5, 5, 5, 0, 5, 5, 5, 6, 5, 5, 5, 5, 0, 0, 6, 7,
    4, 4, 4, 0, 4, 4, 4, 5, 4, 4, 4, 4, 0, 0, 5, 6 ]

/-- The length of an instruction in machine cycles (R520); WAI up to the wait. -/
def Instr.cycles (i : Instr) : Nat := opcodeCycles.getD ((encode i).headD 0).toNat 0

/-- Cycles of the IRQ and NMI sequences (R369, R521). -/
def interruptCycles : Nat := 12

/-- Cycles from the interrupt to the start of its sequence after WAI (R387, R521). -/
def waitExitCycles : Nat := 4

/-- Cycles of a run of instructions: the sum of their lengths. -/
def totalCycles (l : List Instr) : Nat := (l.map Instr.cycles).sum

end Sys2Proof
end

