-- ==== Sys2Proof/Safety.lean ====
section
/-! DEFINITION. The terms claims are stated in: what an instruction leaves alone, where a store goes, and the invariant
of the machine between two steps. -/

namespace Sys2Proof.Machine

/-- The address of the instruction after `i` (R25, R101). -/
def State.next (s : State) (i : Instr) : Word := s.cpu.pc + BitVec.ofNat 16 i.length

/-- The bytes of an instruction and its length in machine cycles (R100, R520). -/
def HasForm (i : Instr) (bytes : List Byte) (cycles : Nat) : Prop := encode i = bytes ∧ i.cycles = cycles

/-- Bit 0 of an instruction's opcode (R368). -/
def opcodeLsb (i : Instr) : Bool := ((encode i).headD 0).getLsbD 0

/-- The hidden state and the environment after an instruction that has no business with interrupts: only bit 0 of its
opcode is noted (R34, R368). -/
def Ordinary (i : Instr) (s t : State) : Prop :=
  t.ctl = { s.ctl with prevOpcodeLsb := opcodeLsb i } ∧ t.env = s.env

/-- No byte of memory changes, at any address, unless another bus master steals a cycle (R79, R542). -/
def SameBytes (y z : System) : Prop := y.steals = [] → ∀ a, z.cell a = y.cell a

/-- The bytes of memory that do not answer to one of the addresses `stored` are unchanged, unless another bus master steals
a cycle.  (An address reaches the same cell as a stored one exactly when the board's decoding gives both the same region,
R61.) -/
def SameBytesExcept (stored : List Word) (y z : System) : Prop :=
  y.steals = [] → ∀ a, (∀ b ∈ stored, y.region a ≠ y.region b) → z.cell a = y.cell a

/-- The instruction touched nothing outside the registers. -/
def RegistersOnly (i : Instr) (s t : State) : Prop := Ordinary i s t ∧ t.sys = s.sys

/-- Outside the registers, the instruction did no more than read its operand. -/
def ReadsOnly (i : Instr) (s : State) (y : System) (t : State) : Prop :=
  Ordinary i s t ∧ t.sys = y ∧ SameBytes s.sys t.sys

/-- Outside the registers, the instruction, having brought the bus to `y`, stored the byte `v` at `a`: read/write memory
there holds it, and no other byte of memory changes. -/
def StoresByte (i : Instr) (s : State) (y : System) (a : Word) (v : Byte) (t : State) : Prop :=
  Ordinary i s t ∧ t.sys = y.write a v ∧ SameBytesExcept [a] s.sys t.sys ∧
    ∀ c, s.sys.ram.wf = true → s.sys.resCut = none → s.sys.steals = [] → s.sys.region a = .ram c →
      t.sys.cell a = some v

/-- Outside the registers, the instruction stored the word `v` at `a` and `a + 1`, high byte at the lower address (R64). -/
def StoresWord (i : Instr) (s : State) (a v : Word) (t : State) : Prop :=
  Ordinary i s t ∧ t.sys = (s.sys.write a (highByte v)).write (a + 1) (lowByte v) ∧
    SameBytesExcept [a, a + 1] s.sys t.sys ∧
    ∀ c d, s.sys.ram.wf = true → s.sys.resCut = none → s.sys.steals = [] → s.sys.region a = .ram c →
      s.sys.region (a + 1) = .ram d → c ≠ d →
      t.sys.cell a = some (highByte v) ∧ t.sys.cell (a + 1) = some (lowByte v)

/-- Outside the registers, the instruction pushed the return address `ret`: its low byte at SP, its high byte at SP - 1
(R66, R326). -/
def PushesReturn (i : Instr) (s : State) (ret : Word) (t : State) : Prop :=
  Ordinary i s t ∧ t.sys = (s.sys.write s.cpu.sp (lowByte ret)).write (s.cpu.sp - 1) (highByte ret) ∧
    SameBytesExcept [s.cpu.sp, s.cpu.sp - 1] s.sys t.sys ∧
    ∀ c d, s.sys.ram.wf = true → s.sys.resCut = none → s.sys.steals = [] → s.sys.region s.cpu.sp = .ram c →
      s.sys.region (s.cpu.sp - 1) = .ram d → c ≠ d →
      t.sys.cell s.cpu.sp = some (lowByte ret) ∧ t.sys.cell (s.cpu.sp - 1) = some (highByte ret)

/-- Where the seven bytes of an interrupt frame go: SP, SP - 1, down to SP - 6 (R361). -/
def frameAddresses (sp : Word) : List Word := [sp, sp - 1, sp - 2, sp - 3, sp - 4, sp - 5, sp - 6]

/-- The bytes of an interrupt frame, in the order they are pushed: PC low, PC high, X low, X high, A, B, CCR (R361). -/
def frameBytes (p : Cpu) (ret : Word) : List Byte :=
  [lowByte ret, highByte ret, lowByte p.x, highByte p.x, p.a, p.b, p.ccr.toByte]

/-- Bytes written one after the other. -/
def System.writes (y : System) (l : List (Word × Byte)) : System := l.foldl (fun z p => z.write p.1 p.2) y

/-- The bus after an interrupt frame has been written for the return address `ret`. -/
def State.framed (s : State) (ret : Word) : System :=
  s.sys.writes ((frameAddresses s.cpu.sp).zip (frameBytes s.cpu ret))

/-- The registers after a vectored sequence that stacked them, from a bus `y` that held the frame: SP down by seven, I set,
PC from the vector (R361, R369 to R371). -/
def vectored (p : Cpu) (y : System) (vector : Word) : Cpu :=
  { p with sp := p.sp - 7, pc := (y.read16 vector).1, ccr := { p.ccr with i := true } }

/-- The hidden state after a vectored sequence (R369, D16). -/
def afterVector (c : Control) : Control := { c with irqLatch := false, prevOpcodeLsb := false }

/-- The seven bytes of a frame stacked from `sp` lie in read/write memory, in seven different cells. -/
def FrameInRam (y : System) (sp : Word) : Prop :=
  ∃ cells : List Word, cells.Nodup ∧ (frameAddresses sp).map y.region = cells.map .ram

/-- A running machine at a boundary with no event to come, no cycle to be stolen and no input that would keep it from its
tests (R362). -/
def Undisturbed (s : State) : Prop :=
  s.env.schedule = [] ∧ s.env.resLow = false ∧ s.env.tscHigh = false ∧ s.env.haltLow = false ∧
    s.env.nmiDuring = false ∧ s.sys.resCut = none ∧ s.sys.steals = []

/-- What holds between any two steps: the memories are in canonical form, the board claims no address twice, RES low
holds the MPU, and nothing is left of an edge or a pulse that fell inside a step. -/
structure State.Inv (s : State) : Prop where
  ramCanonical : s.sys.ram.wf = true
  romCanonical : s.sys.rom.wf = true
  mapLegal : s.sys.board.map.legal = true
  resHolds : s.env.resLow = true → s.ctl.runState = .held
  noCut : s.sys.resCut = none
  noEdgeLeft : s.env.nmiDuring = false
  noPulseLeft : s.env.irqDuring = false

end Sys2Proof.Machine
end

