-- ==== Sys2Proof/Certificates/Slice0/Obligations.lean ====
section
/-! DEFINITION. The statements about the machine that the provers are asked for, in the order of the spec's files. -/

open Sys2Proof Sys2Proof.Machine

/-! ### Encoding (30_encoding.md) -/

/-- R100, R101, R103: no bit of an encoding is dropped. -/
def Obligations.DecodeOfEncode : Prop :=
  ∀ (i : Instr) (rest : List Byte), decode (encode i ++ rest) = .ok (i, rest)

/-- R103, R113: an instruction has one encoding, and decoding reads exactly its bytes. -/
def Obligations.EncodeOfDecode : Prop :=
  ∀ (bytes : List Byte) (i : Instr) (rest : List Byte), decode bytes = .ok (i, rest) → encode i ++ rest = bytes

/-- R112: exactly these 59 opcodes are refused, whatever follows them. -/
def Obligations.UnassignedOpcodes : Prop :=
  ∀ (opcode : Byte) (rest : List Byte),
    decode (opcode :: rest) = .error (.undefinedOpcode opcode) ↔
      opcode ∈ ([0x00, 0x02, 0x03, 0x04, 0x05, 0x12, 0x13, 0x14, 0x15, 0x18, 0x1A, 0x1C, 0x1D, 0x1E, 0x1F, 0x21, 0x38,
        0x3A, 0x3C, 0x3D, 0x41, 0x42, 0x45, 0x4B, 0x4E, 0x51, 0x52, 0x55, 0x5B, 0x5E, 0x61, 0x62, 0x65, 0x6B, 0x71,
        0x72, 0x75, 0x7B, 0x83, 0x87, 0x8F, 0x93, 0x9D, 0xA3, 0xB3, 0xC3, 0xC7, 0xCC, 0xCD, 0xCF, 0xD3, 0xDC, 0xDD,
        0xE3, 0xEC, 0xED, 0xF3, 0xFC, 0xFD] : List Byte)

/-- R120: the words of the manual's listings, one for each format. -/
def Obligations.ListingWordsDecode : Prop :=
  decode [0x0C] = .ok (.clc, []) ∧ decode [0xC6, 0x08] = .ok (.ldabImm 8, []) ∧
    decode [0xCE, 0x01, 0x02] = .ok (.ldxImm 0x0102, []) ∧ decode [0xA0, 0x00] = .ok (.subaIdx 0, []) ∧
    decode [0xA9, 0x0F] = .ok (.adcaIdx 15, []) ∧ decode [0xFF, 0x01, 0x00] = .ok (.stxExt 0x0100, []) ∧
    decode [0xBD, 0x10, 0x00] = .ok (.jsrExt 0x1000, []) ∧ decode [0x26, 0xF5] = .ok (.bne 0xF5, []) ∧
    decode [0x20, 0xFD] = .ok (.bra 0xFD, []) ∧ decode [0x96, 0x85] = .ok (.ldaaDir 0x85, [])

/-! ### Steps (R25, R69, R112, R362) -/

/-- R25, R69, R362, R367: at a boundary with no interrupt to take, a machine whose program lies in memory executes the
instruction that the bytes at PC decode to; around it the one-shot hold-offs are spent and the PIAs see an E pulse, and an
IRQ pulse during the instruction is latched if it finds I = 0 (log 22). (An instruction is at most three bytes; decoding
ignores those it does not need.) -/
def Obligations.StepRunsInstruction : Prop :=
  ∀ (s : State) (b0 b1 b2 : Byte) (i : Instr) (rest : List Byte),
    Undisturbed s → s.ctl.runState = .running → s.takesNmi = false → s.takesIrq = false →
    s.sys.cell s.cpu.pc = some b0 → s.sys.cell (s.cpu.pc + 1) = some b1 → s.sys.cell (s.cpu.pc + 2) = some b2 →
    decode [b0, b1, b2] = .ok (i, rest) →
    let t := s.clearHoldoffs.pulseE
    step s = settleOutcome (exec i { t with
      ctl := { t.ctl with irqLatch := t.ctl.irqLatch || (t.env.irqDuring && !t.cpu.ccr.i) }
      env := { t.env with irqDuring := false } })

/-- R112, D10 (log 17): the fetch of an unassigned opcode stops the model, naming the opcode and its address. -/
def Obligations.UndefinedOpcodeStops : Prop :=
  ∀ (s : State) (b : Byte),
    Undisturbed s → s.ctl.runState = .running → s.takesNmi = false → s.takesIrq = false →
    s.sys.cell s.cpu.pc = some b → decode [b] = .error (.undefinedOpcode b) →
    step s = .refused (.undefinedOpcode b s.cpu.pc)

/-- R360, R400: no instruction faults or is refused, in any state. -/
def Obligations.EveryInstructionCompletes : Prop := ∀ (i : Instr) (s : State), ∃ t, exec i s = .next t

/-! ### Arithmetic (41_arithmetic.md) -/

/-- R160, R164, R165, R167, R168: ADD and ADC, every accumulator and operand.  V says that the signed sum does not fit a
byte, C that the unsigned one does not. -/
def Obligations.AddResult : Prop :=
  ∀ (withCarry : Bool) (r : Acc) (o : Operand8) (s : State),
    let i := Instr.dual (if withCarry then .adc else .add) r o
    let a := s.cpu.acc r
    let m := (s.load8 o).1
    let cin := withCarry && s.cpu.ccr.c
    let v := BitVec.ofNat 8 (a.toNat + m.toNat + cin.toNat)
    ∃ t, exec i s = .next t ∧
      t.cpu = { s.cpu with
                  pc := s.next i
                  ccr := { s.cpu.ccr with
                             h := decide (15 < a.toNat % 16 + m.toNat % 16 + cin.toNat)
                             n := v.msb
                             z := decide (v = 0)
                             v := decide (v.toInt ≠ a.toInt + m.toInt + cin.toNat)
                             c := decide (v.toNat ≠ a.toNat + m.toNat + cin.toNat) } }.setAcc r v ∧
      ReadsOnly i s (s.load8 o).2.sys t

/-- R160, R166: ABA. -/
def Obligations.AddAccumulators : Prop :=
  ∀ s : State,
    let a := s.cpu.a
    let b := s.cpu.b
    HasForm .aba [0x1B] 2 ∧ ∃ t, exec .aba s = .next t ∧
      t.cpu = { s.cpu with
                  a := a + b
                  pc := s.cpu.pc + 1
                  ccr := { s.cpu.ccr with
                             h := decide (15 < a.toNat % 16 + b.toNat % 16)
                             n := (a + b).msb
                             z := decide (a + b = 0)
                             v := decide ((a + b).toInt ≠ a.toInt + b.toInt)
                             c := decide ((a + b).toNat ≠ a.toNat + b.toNat) } } ∧
      RegistersOnly .aba s t

/-- R161, R169, R170, R172, R173: SUB and SBC.  C is the borrow; V says that the signed difference does not fit a byte. -/
def Obligations.SubtractResult : Prop :=
  ∀ (withCarry : Bool) (r : Acc) (o : Operand8) (s : State),
    let i := Instr.dual (if withCarry then .sbc else .sub) r o
    let a := s.cpu.acc r
    let m := (s.load8 o).1
    let bin := withCarry && s.cpu.ccr.c
    let v := a - m - BitVec.ofNat 8 bin.toNat
    ∃ t, exec i s = .next t ∧
      t.cpu = { s.cpu with
                  pc := s.next i
                  ccr := { s.cpu.ccr with
                             n := v.msb
                             z := decide (v = 0)
                             v := decide (v.toInt ≠ a.toInt - m.toInt - bin.toNat)
                             c := decide (a.toNat < m.toNat + bin.toNat) } }.setAcc r v ∧
      ReadsOnly i s (s.load8 o).2.sys t

/-- R171, R214: SBA, and CBA which discards the result. -/
def Obligations.SubtractAccumulators : Prop :=
  ∀ s : State,
    let a := s.cpu.a
    let b := s.cpu.b
    let flags := { s.cpu.ccr with
                     n := (a - b).msb
                     z := decide (a = b)
                     v := decide ((a - b).toInt ≠ a.toInt - b.toInt)
                     c := decide (a.toNat < b.toNat) }
    HasForm .sba [0x10] 2 ∧ HasForm .cba [0x11] 2 ∧
    (∃ t, exec .sba s = .next t ∧ t.cpu = { s.cpu with a := a - b, pc := s.cpu.pc + 1, ccr := flags } ∧
      RegistersOnly .sba s t) ∧
    (∃ t, exec .cba s = .next t ∧ t.cpu = { s.cpu with pc := s.cpu.pc + 1, ccr := flags } ∧ RegistersOnly .cba s t)

/-- R177: DAA, every A, H and C.  The undefined V is the free value of the draw counter (log 11). -/
def Obligations.DecimalAdjust : Prop :=
  ∀ s : State,
    let lo := s.cpu.a.toNat % 16
    let hi := s.cpu.a.toNat / 16
    let low : Bool := decide (9 < lo) || s.cpu.ccr.h
    let high : Bool := decide (9 < hi) || s.cpu.ccr.c || (decide (9 < lo) && decide (hi = 9))
    let v := BitVec.ofNat 8 (s.cpu.a.toNat + (if high then 0x60 else 0) + if low then 0x06 else 0)
    ∃ t, exec .daa s = .next t ∧
      t.cpu = { s.cpu with
                  a := v
                  pc := s.cpu.pc + 1
                  ccr := { s.cpu.ccr with
                             n := v.msb
                             z := decide (v = 0)
                             v := Config.daaOverflow s.sys.draws
                             c := s.cpu.ccr.c || high } } ∧
      Ordinary .daa s t ∧ t.sys = { s.sys with draws := s.sys.draws + 1 } ∧ SameBytes s.sys t.sys

/-- R177, R178: DAA right after ADCA of two packed BCD bytes gives the BCD sum, its decimal carry in C. -/
def Obligations.DecimalSum : Prop :=
  ∀ (s t u : State) (x1 x0 y1 y0 : Nat),
    x1 < 10 → x0 < 10 → y1 < 10 → y0 < 10 → s.cpu.a = BitVec.ofNat 8 (16 * x1 + x0) →
    exec (.adcaImm (BitVec.ofNat 8 (16 * y1 + y0))) s = .next t → exec .daa t = .next u →
    let sum := 10 * x1 + x0 + (10 * y1 + y0) + s.cpu.ccr.c.toNat
    u.cpu.a = BitVec.ofNat 8 (16 * (sum % 100 / 10) + sum % 10) ∧ (u.cpu.ccr.c = true ↔ 100 ≤ sum)

/-! ### Logic and test (42_logic_test.md) -/

/-- R200 to R202, R206 to R209, R240, R241: AND, ORA, EOR and LDA. -/
def Obligations.LogicAndLoad : Prop :=
  ∀ (r : Acc) (o : Operand8) (s : State),
    let a := s.cpu.acc r
    let m := (s.load8 o).1
    let gives := fun (op : DualOp) (v : Byte) =>
      ∃ t, exec (.dual op r o) s = .next t ∧
        t.cpu = { s.cpu with
                    pc := s.next (.dual op r o)
                    ccr := { s.cpu.ccr with n := v.msb, z := decide (v = 0), v := false } }.setAcc r v ∧
        ReadsOnly (.dual op r o) s (s.load8 o).2.sys t
    gives .and (a &&& m) ∧ gives .ora (a ||| m) ∧ gives .eor (a ^^^ m) ∧ gives .lda m

/-- R210, R211, R212, R213: BIT and CMP change only flags. -/
def Obligations.TestAndCompare : Prop :=
  ∀ (r : Acc) (o : Operand8) (s : State),
    let a := s.cpu.acc r
    let m := (s.load8 o).1
    let gives := fun (op : DualOp) (f : Ccr) =>
      ∃ t, exec (.dual op r o) s = .next t ∧ t.cpu = { s.cpu with pc := s.next (.dual op r o), ccr := f } ∧
        ReadsOnly (.dual op r o) s (s.load8 o).2.sys t
    gives .bit { s.cpu.ccr with n := (a &&& m).msb, z := decide (a &&& m = 0), v := false } ∧
    gives .cmp { s.cpu.ccr with
                   n := (a - m).msb
                   z := decide (a = m)
                   v := decide ((a - m).toInt ≠ a.toInt - m.toInt)
                   c := decide (a.toNat < m.toNat) }

/-- R335: after CMPA, CMPB, SUBA, SUBB, CBA or SBA each branch of the table tells the relation of the operands. -/
def Obligations.BranchAfterCompare : Prop :=
  ∀ (s t : State) (rel : Byte),
    let tells := fun (i : Instr) (a m : Byte) =>
      exec i s = .next t →
      let taken := fun (c : Cond) (p : Prop) =>
        ∃ u, exec (.branch c rel) t = .next u ∧ (p → u.cpu.pc = t.cpu.pc + 2 + rel.signExtend 16) ∧
          (¬p → u.cpu.pc = t.cpu.pc + 2)
      taken .lt (a.toInt < m.toInt) ∧ taken .le (a.toInt ≤ m.toInt) ∧ taken .ge (m.toInt ≤ a.toInt) ∧
        taken .gt (m.toInt < a.toInt) ∧ taken .cs (a.toNat < m.toNat) ∧ taken .ls (a.toNat ≤ m.toNat) ∧
        taken .cc (m.toNat ≤ a.toNat) ∧ taken .hi (m.toNat < a.toNat) ∧ taken .eq (a = m) ∧ taken .ne (a ≠ m)
    (∀ (r : Acc) (o : Operand8),
      tells (.dual .cmp r o) (s.cpu.acc r) (s.load8 o).1 ∧ tells (.dual .sub r o) (s.cpu.acc r) (s.load8 o).1) ∧
    tells .cba s.cpu.a s.cpu.b ∧ tells .sba s.cpu.a s.cpu.b

/-! ### Single-operand group (R174 to R176, R203 to R205, R215 to R218, R230 to R239, R246 to R261) -/

/-- The accumulator forms of NEG, COM, DEC, INC, CLR and TST. -/
def Obligations.UnaryAccumulator : Prop :=
  ∀ (r : Acc) (s : State),
    let m := s.cpu.acc r
    let f := s.cpu.ccr
    let gives := fun (op : RmwOp) (v : Byte) (g : Ccr) =>
      ∃ t, exec (.rmwAcc op r) s = .next t ∧ t.cpu = { s.cpu with pc := s.cpu.pc + 1, ccr := g }.setAcc r v ∧
        RegistersOnly (.rmwAcc op r) s t
    gives .neg (-m) { f with n := (-m).msb, z := decide (m = 0), v := decide (m = 0x80), c := decide (m ≠ 0) } ∧
      gives .com (~~~m) { f with n := !m.msb, z := decide (m = 0xFF), v := false, c := true } ∧
      gives .dec (m - 1) { f with n := (m - 1).msb, z := decide (m = 1), v := decide (m = 0x80) } ∧
      gives .inc (m + 1) { f with n := (m + 1).msb, z := decide (m = 0xFF), v := decide (m = 0x7F) } ∧
      gives .clr 0 { f with n := false, z := true, v := false, c := false } ∧
      gives .tst m { f with n := m.msb, z := decide (m = 0), v := false, c := false }

/-- R246, R266: the accumulator forms of the five shifts. -/
def Obligations.ShiftAccumulator : Prop :=
  ∀ (r : Acc) (s : State),
    let m := s.cpu.acc r
    let c := s.cpu.ccr.c
    let gives := fun (op : RmwOp) (v : Byte) (carry overflow : Bool) =>
      ∃ t, exec (.rmwAcc op r) s = .next t ∧
        t.cpu = { s.cpu with
                    pc := s.cpu.pc + 1
                    ccr := { s.cpu.ccr with n := v.msb, z := decide (v = 0), v := overflow, c := carry } }.setAcc r v ∧
        RegistersOnly (.rmwAcc op r) s t
    gives .rol (m <<< 1 ||| BitVec.ofNat 8 c.toNat) (m.getLsbD 7) (m.getLsbD 6 ^^ m.getLsbD 7) ∧
      gives .asl (m <<< 1) (m.getLsbD 7) (m.getLsbD 6 ^^ m.getLsbD 7) ∧
      gives .ror (m >>> 1 ||| BitVec.ofNat 8 (128 * c.toNat)) (m.getLsbD 0) (c ^^ m.getLsbD 0) ∧
      gives .asr (m.sshiftRight 1) (m.getLsbD 0) (m.getLsbD 7 ^^ m.getLsbD 0) ∧
      gives .lsr (m >>> 1) (m.getLsbD 0) (m.getLsbD 0)

/-- The memory forms of NEG, COM, DEC and INC: one read, then one write of the same address. -/
def Obligations.UnaryMemory : Prop :=
  ∀ (p : Ptr) (s : State),
    let a := s.cpu.ea p.toEa
    let m := (s.sys.read a).1
    let f := s.cpu.ccr
    let gives := fun (op : RmwOp) (v : Byte) (g : Ccr) =>
      ∃ t, exec (.rmwMem op p) s = .next t ∧ t.cpu = { s.cpu with pc := s.next (.rmwMem op p), ccr := g } ∧
        StoresByte (.rmwMem op p) s (s.sys.read a).2 a v t
    gives .neg (-m) { f with n := (-m).msb, z := decide (m = 0), v := decide (m = 0x80), c := decide (m ≠ 0) } ∧
      gives .com (~~~m) { f with n := !m.msb, z := decide (m = 0xFF), v := false, c := true } ∧
      gives .dec (m - 1) { f with n := (m - 1).msb, z := decide (m = 1), v := decide (m = 0x80) } ∧
      gives .inc (m + 1) { f with n := (m + 1).msb, z := decide (m = 0xFF), v := decide (m = 0x7F) }

/-- R230, R246, R266: the memory forms of the five shifts. -/
def Obligations.ShiftMemory : Prop :=
  ∀ (p : Ptr) (s : State),
    let a := s.cpu.ea p.toEa
    let m := (s.sys.read a).1
    let c := s.cpu.ccr.c
    let gives := fun (op : RmwOp) (v : Byte) (carry overflow : Bool) =>
      ∃ t, exec (.rmwMem op p) s = .next t ∧
        t.cpu = { s.cpu with
                    pc := s.next (.rmwMem op p)
                    ccr := { s.cpu.ccr with n := v.msb, z := decide (v = 0), v := overflow, c := carry } } ∧
        StoresByte (.rmwMem op p) s (s.sys.read a).2 a v t
    gives .rol (m <<< 1 ||| BitVec.ofNat 8 c.toNat) (m.getLsbD 7) (m.getLsbD 6 ^^ m.getLsbD 7) ∧
      gives .asl (m <<< 1) (m.getLsbD 7) (m.getLsbD 6 ^^ m.getLsbD 7) ∧
      gives .ror (m >>> 1 ||| BitVec.ofNat 8 (128 * c.toNat)) (m.getLsbD 0) (c ^^ m.getLsbD 0) ∧
      gives .asr (m.sshiftRight 1) (m.getLsbD 0) (m.getLsbD 7 ^^ m.getLsbD 0) ∧
      gives .lsr (m >>> 1) (m.getLsbD 0) (m.getLsbD 0)

/-- R231: CLR on memory.  Whether it reads the location first is the board's parameter (log 19). -/
def Obligations.ClearMemory : Prop :=
  ∀ (p : Ptr) (s : State),
    let i := Instr.rmwMem .clr p
    let a := s.cpu.ea p.toEa
    ∃ t, exec i s = .next t ∧
      t.cpu = { s.cpu with
                  pc := s.next i, ccr := { s.cpu.ccr with n := false, z := true, v := false, c := false } } ∧
      StoresByte i s (if s.sys.board.clrReadsFirst then (s.sys.read a).2 else s.sys) a 0 t

/-- R215, R216: TST on memory reads and changes no byte; on a board that ignores VMA the byte read is written back
(R534, log 20), which leaves memory as it was, where the byte was memory. -/
def Obligations.TestMemory : Prop :=
  ∀ (p : Ptr) (s : State),
    let i := Instr.rmwMem .tst p
    let a := s.cpu.ea p.toEa
    let m := (s.sys.read a).1
    ∃ t, exec i s = .next t ∧
      t.cpu = { s.cpu with
                  pc := s.next i
                  ccr := { s.cpu.ccr with n := m.msb, z := decide (m = 0), v := false, c := false } } ∧
      Ordinary i s t ∧ (s.sys.board.tstWritesBack = false ∨ s.sys.ram.wf = true → SameBytes s.sys t.sys) ∧
      t.sys = if s.sys.board.tstWritesBack then (s.sys.read a).2.write a m else (s.sys.read a).2

/-! ### Data handling (43_data_handling.md) -/

/-- R262, R263: STA. -/
def Obligations.StoreAccumulator : Prop :=
  ∀ (r : Acc) (e : Ea) (s : State),
    let i := Instr.sta r e
    let v := s.cpu.acc r
    ∃ t, exec i s = .next t ∧
      t.cpu = { s.cpu with
                  pc := s.next i, ccr := { s.cpu.ccr with n := v.msb, z := decide (v = 0), v := false } } ∧
      StoresByte i s s.sys (s.cpu.ea e) v t

/-- R31, R242, R243: PSH stores at SP, then decrements it; no flag changes. -/
def Obligations.PushAccumulator : Prop :=
  ∀ (r : Acc) (s : State),
    let i := Instr.psh r
    ∃ t, exec i s = .next t ∧ t.cpu = { s.cpu with pc := s.cpu.pc + 1, sp := s.cpu.sp - 1 } ∧
      StoresByte i s s.sys s.cpu.sp (s.cpu.acc r) t

/-- R32, R244, R245: PUL increments SP, then reads there; no flag changes. -/
def Obligations.PullAccumulator : Prop :=
  ∀ (r : Acc) (s : State),
    let i := Instr.pul r
    let m := s.sys.read (s.cpu.sp + 1)
    ∃ t, exec i s = .next t ∧ t.cpu = { s.cpu with pc := s.cpu.pc + 1, sp := s.cpu.sp + 1 }.setAcc r m.1 ∧
      ReadsOnly i s m.2 t

/-- R264, R265: TAB and TBA. -/
def Obligations.TransferAccumulators : Prop :=
  ∀ s : State,
    let flags := fun v : Byte => { s.cpu.ccr with n := v.msb, z := decide (v = 0), v := false }
    HasForm .tab [0x16] 2 ∧ HasForm .tba [0x17] 2 ∧
    (∃ t, exec .tab s = .next t ∧
      t.cpu = { s.cpu with b := s.cpu.a, pc := s.cpu.pc + 1, ccr := flags s.cpu.a } ∧ RegistersOnly .tab s t) ∧
    (∃ t, exec .tba s = .next t ∧
      t.cpu = { s.cpu with a := s.cpu.b, pc := s.cpu.pc + 1, ccr := flags s.cpu.b } ∧ RegistersOnly .tba s t)

/-! ### Index register and stack pointer (44_index_stack.md) -/

/-- R280: CPX.  Z and N are of the 16-bit difference, V of the low-byte subtraction as the manual prints it (log 18), C
is unchanged. -/
def Obligations.CompareIndex : Prop :=
  ∀ (o : Operand16) (s : State),
    let i := Instr.cpx o
    let m := (s.load16 o).1
    let x0 : Byte := s.cpu.x.setWidth 8
    let m0 : Byte := m.setWidth 8
    ∃ t, exec i s = .next t ∧
      t.cpu = { s.cpu with
                  pc := s.next i
                  ccr := { s.cpu.ccr with
                             n := (s.cpu.x - m).msb
                             z := decide (s.cpu.x = m)
                             v := decide ((x0 - m0).toInt ≠ x0.toInt - m0.toInt) } } ∧
      ReadsOnly i s (s.load16 o).2.sys t

/-- R281, R283: DEX and INX change X and Z alone. -/
def Obligations.StepIndex : Prop :=
  ∀ s : State,
    HasForm .dex [0x09] 4 ∧ HasForm .inx [0x08] 4 ∧
    (∃ t, exec .dex s = .next t ∧
      t.cpu = { s.cpu with
                  x := s.cpu.x - 1, pc := s.cpu.pc + 1, ccr := { s.cpu.ccr with z := decide (s.cpu.x = 1) } } ∧
      RegistersOnly .dex s t) ∧
    (∃ t, exec .inx s = .next t ∧
      t.cpu = { s.cpu with
                  x := s.cpu.x + 1, pc := s.cpu.pc + 1, ccr := { s.cpu.ccr with z := decide (s.cpu.x = 0xFFFF) } } ∧
      RegistersOnly .inx s t)

/-- R282, R284, R289, R290: DES, INS, TXS and TSX move no flag and no memory. -/
def Obligations.MoveStackPointer : Prop :=
  ∀ s : State,
    let gives := fun (i : Instr) (opcode : Byte) (x sp : Word) =>
      HasForm i [opcode] 4 ∧
        ∃ t, exec i s = .next t ∧ t.cpu = { s.cpu with x := x, sp := sp, pc := s.cpu.pc + 1 } ∧ RegistersOnly i s t
    gives .des 0x34 s.cpu.x (s.cpu.sp - 1) ∧ gives .ins 0x31 s.cpu.x (s.cpu.sp + 1) ∧
      gives .txs 0x35 s.cpu.x (s.cpu.x - 1) ∧ gives .tsx 0x30 (s.cpu.sp + 1) s.cpu.sp

/-- R285, R286, R292: LDX and LDS. -/
def Obligations.LoadIndexAndStack : Prop :=
  ∀ (o : Operand16) (s : State),
    let v := (s.load16 o).1
    let flags := { s.cpu.ccr with n := v.msb, z := decide (v = 0), v := false }
    (∃ t, exec (.ldx o) s = .next t ∧ t.cpu = { s.cpu with x := v, pc := s.next (.ldx o), ccr := flags } ∧
      ReadsOnly (.ldx o) s (s.load16 o).2.sys t) ∧
    (∃ t, exec (.lds o) s = .next t ∧ t.cpu = { s.cpu with sp := v, pc := s.next (.lds o), ccr := flags } ∧
      ReadsOnly (.lds o) s (s.load16 o).2.sys t)

/-- R64, R287, R288, R292: STX and STS write the high byte first, at the lower address. -/
def Obligations.StoreIndexAndStack : Prop :=
  ∀ (e : Ea) (s : State),
    let gives := fun (i : Instr) (v : Word) =>
      ∃ t, exec i s = .next t ∧
        t.cpu = { s.cpu with
                    pc := s.next i, ccr := { s.cpu.ccr with n := v.msb, z := decide (v = 0), v := false } } ∧
        StoresWord i s (s.cpu.ea e) v t
    gives (.stx e) s.cpu.x ∧ gives (.sts e) s.cpu.sp

/-! ### Jump, branch, interrupt instructions (45_jump_branch.md) -/

/-- R109, R310 to R325: the fifteen branches. -/
def Obligations.BranchResult : Prop :=
  ∀ (rel : Byte) (s : State),
    let f := s.cpu.ccr
    let gives := fun (c : Cond) (p : Prop) =>
      ∃ t, exec (.branch c rel) s = .next t ∧
        (p → t.cpu = { s.cpu with pc := s.cpu.pc + 2 + rel.signExtend 16 }) ∧
        (¬p → t.cpu = { s.cpu with pc := s.cpu.pc + 2 }) ∧ RegistersOnly (.branch c rel) s t
    gives .always True ∧ gives .cc (f.c = false) ∧ gives .cs (f.c = true) ∧ gives .eq (f.z = true) ∧
      gives .ne (f.z = false) ∧ gives .vc (f.v = false) ∧ gives .vs (f.v = true) ∧ gives .mi (f.n = true) ∧
      gives .pl (f.n = false) ∧ gives .ge (f.n = f.v) ∧ gives .lt (f.n ≠ f.v) ∧
      gives .gt (f.z = false ∧ f.n = f.v) ∧ gives .le (f.z = true ∨ f.n ≠ f.v) ∧
      gives .hi (f.c = false ∧ f.z = false) ∧ gives .ls (f.c = true ∨ f.z = true)

/-- R109, R115: the offset the assembler puts into a branch at `location` makes the taken branch go to the operand's value;
it is out of range exactly beyond -127 to +127 (error 208).  The assembler is the model's reading of the source language
(log 42), and an offset of 80 is never assembled (log 36). -/
def Obligations.AssembledBranchTarget : Prop :=
  ∀ (c : Cond) (v location : Int) (s : State),
    s.cpu.pc = BitVec.ofInt 16 location → condHolds c s.cpu.ccr = true →
    let assembled := assembleInstr (.branch (Instr.branch c)) none (some (.plain v)) location
    ((-127 ≤ v - location - 2 ∧ v - location - 2 ≤ 127) →
      ∃ i t, assembled = .ok i ∧ exec i s = .next t ∧ t.cpu.pc = BitVec.ofInt 16 v) ∧
    (¬(-127 ≤ v - location - 2 ∧ v - location - 2 ≤ 127) → assembled = .error .branchOutOfRange)

/-- R326, R328: BSR and JSR push the address of the next instruction and jump; SP is down by two. -/
def Obligations.CallSubroutine : Prop :=
  ∀ s : State,
    let gives := fun (i : Instr) (target : Word) =>
      ∃ t, exec i s = .next t ∧ t.cpu = { s.cpu with sp := s.cpu.sp - 2, pc := target } ∧
        PushesReturn i s (s.next i) t
    (∀ rel : Byte, gives (.bsr rel) (s.cpu.pc + 2 + rel.signExtend 16)) ∧
      (∀ off : Byte, gives (.jsr (.idx off)) (s.cpu.x + off.zeroExtend 16)) ∧ ∀ w : Word, gives (.jsr (.ext w)) w

/-- R327, R329: JMP goes to the effective address itself; NOP only advances PC. -/
def Obligations.JumpAndNop : Prop :=
  ∀ s : State,
    let gives := fun (i : Instr) (target : Word) =>
      ∃ t, exec i s = .next t ∧ t.cpu = { s.cpu with pc := target } ∧ RegistersOnly i s t
    (∀ off : Byte, gives (.jmp (.idx off)) (s.cpu.x + off.zeroExtend 16)) ∧ (∀ w : Word, gives (.jmp (.ext w)) w) ∧
      gives .nop (s.cpu.pc + 1)

/-- R331: RTS pulls PC, high byte first. -/
def Obligations.ReturnFromSubroutine : Prop :=
  ∀ s : State,
    let hi := s.sys.read (s.cpu.sp + 1)
    let lo := hi.2.read (s.cpu.sp + 2)
    ∃ t, exec .rts s = .next t ∧ t.cpu = { s.cpu with sp := s.cpu.sp + 2, pc := hi.1 ++ lo.1 } ∧
      ReadsOnly .rts s lo.2 t

/-- R330: RTI pulls CCR, B, A, X and PC, in this order (log 15); bits 7 and 6 of the first byte are ignored (log 14). -/
def Obligations.ReturnFromInterrupt : Prop :=
  ∀ s : State,
    let r1 := s.sys.read (s.cpu.sp + 1)
    let r2 := r1.2.read (s.cpu.sp + 2)
    let r3 := r2.2.read (s.cpu.sp + 3)
    let r4 := r3.2.read (s.cpu.sp + 4)
    let r5 := r4.2.read (s.cpu.sp + 5)
    let r6 := r5.2.read (s.cpu.sp + 6)
    let r7 := r6.2.read (s.cpu.sp + 7)
    ∃ t, exec .rti s = .next t ∧
      t.cpu = { a := r3.1, b := r2.1, x := r4.1 ++ r5.1, sp := s.cpu.sp + 7, pc := r6.1 ++ r7.1,
                ccr := { h := r1.1.getLsbD 5, i := r1.1.getLsbD 4, n := r1.1.getLsbD 3, z := r1.1.getLsbD 2,
                         v := r1.1.getLsbD 1, c := r1.1.getLsbD 0 } } ∧
      ReadsOnly .rti s r7.2 t

/-- R332, R371, R374: SWI stacks the registers and enters its vector; if an NMI edge falls while it executes, from other
hardware or made by a device that its own pushes reach, it enters the IRQ vector instead and the NMI is consumed; an edge
that a device makes in a cycle stolen from SWI's fetch is one of these.  Frame order, CCR byte and hidden opcode bit are the
model's (logs 14, 15, 21), and so is the moment of the edge as one input (log 24). -/
def Obligations.SoftwareInterrupt : Prop :=
  ∀ s : State,
    (let y := s.clearNmi.framed (s.cpu.pc + 1)
     let arrives := s.env.nmiDuring || y.nmiLatch
     let z := { y with nmiLatch := !arrives && s.sys.nmiLatch }
     let vector := if arrives then 0xFFF8 else 0xFFFA
     ∃ t, exec .swi s = .next t ∧ t.cpu = vectored s.cpu z vector ∧ t.sys = (z.read16 vector).2 ∧
       t.env = { s.env with nmiDuring := false } ∧ t.ctl = afterVector s.ctl ∧
       SameBytesExcept (frameAddresses s.cpu.sp) s.sys t.sys) ∧
    (∀ rest, decode s.fetch.1 = .ok (.swi, rest) → s.clearNmi.fetchBytes.2.sys.nmiLatch = true →
      s.runInstruction = settleOutcome (exec .swi s.fetch.2) ∧ s.fetch.2.env.nmiDuring = true ∧
        s.fetch.2.sys.nmiLatch = s.sys.nmiLatch)

/-- R333, R385: WAI stacks the registers and waits; I is not changed.  Frame order and CCR byte are the model's (logs 14,
15). -/
def Obligations.WaitForInterrupt : Prop :=
  ∀ s : State,
    ∃ t, exec .wai s = .next t ∧ t.cpu = { s.cpu with sp := s.cpu.sp - 7, pc := s.cpu.pc + 1 } ∧
      t.ctl = { s.ctl with runState := .waiting, prevOpcodeLsb := opcodeLsb .wai } ∧ t.env = s.env ∧
      t.sys = s.framed (s.cpu.pc + 1) ∧ SameBytesExcept (frameAddresses s.cpu.sp) s.sys t.sys

/-! ### Condition code register (40_ccr_ops.md) -/

/-- R141, R143 to R146: CLC, CLV, SEC, SEI and SEV change one flag each. -/
def Obligations.SingleFlag : Prop :=
  ∀ s : State,
    let f := s.cpu.ccr
    let gives := fun (i : Instr) (opcode : Byte) (g : Ccr) =>
      encode i = [opcode] ∧
        ∃ t, exec i s = .next t ∧ t.cpu = { s.cpu with pc := s.cpu.pc + 1, ccr := g } ∧ RegistersOnly i s t
    gives .clc 0x0C { f with c := false } ∧ gives .clv 0x0A { f with v := false } ∧
      gives .sec 0x0D { f with c := true } ∧ gives .sei 0x0F { f with i := true } ∧ gives .sev 0x0B { f with v := true }

/-- R142, R368: CLI clears I; the IRQ test waits one instruction exactly when I was set and the opcode before CLI was odd
(or a hold-off was already in force).  What the hidden bit holds after a reset or an interrupt sequence is log 21's. -/
def Obligations.ClearMask : Prop :=
  ∀ s : State,
    ∃ t, exec .cli s = .next t ∧
      t.cpu = { s.cpu with pc := s.cpu.pc + 1, ccr := { s.cpu.ccr with i := false } } ∧
      t.ctl = { s.ctl with
                  prevOpcodeLsb := false
                  irqHoldoff := s.ctl.irqHoldoff || (s.cpu.ccr.i && s.ctl.prevOpcodeLsb) } ∧
      t.env = s.env ∧ t.sys = s.sys

/-- R147, R148: TPA reads the CCR as 1 1 H I N Z V C (log 14); TAP writes the six flags from A.
When TAP clears I, a free choice holds the IRQ test off (log 12). -/
def Obligations.TransferFlags : Prop :=
  ∀ s : State,
    (∃ t, exec .tpa s = .next t ∧
      t.cpu = { s.cpu with
                  a := 0xC0 ||| (BitVec.ofBool s.cpu.ccr.h).zeroExtend 8 <<< 5 |||
                    (BitVec.ofBool s.cpu.ccr.i).zeroExtend 8 <<< 4 ||| (BitVec.ofBool s.cpu.ccr.n).zeroExtend 8 <<< 3 |||
                    (BitVec.ofBool s.cpu.ccr.z).zeroExtend 8 <<< 2 ||| (BitVec.ofBool s.cpu.ccr.v).zeroExtend 8 <<< 1 |||
                    (BitVec.ofBool s.cpu.ccr.c).zeroExtend 8
                  pc := s.cpu.pc + 1 } ∧
      RegistersOnly .tpa s t) ∧
    (∃ t, exec .tap s = .next t ∧
      t.cpu = { s.cpu with
                  pc := s.cpu.pc + 1
                  ccr := { h := s.cpu.a.getLsbD 5, i := s.cpu.a.getLsbD 4, n := s.cpu.a.getLsbD 3,
                           z := s.cpu.a.getLsbD 2, v := s.cpu.a.getLsbD 1, c := s.cpu.a.getLsbD 0 } } ∧
      t.env = s.env ∧ SameBytes s.sys t.sys ∧
      (s.cpu.ccr.i = true ∧ s.cpu.a.getLsbD 4 = false →
        t.ctl = { s.ctl with
                    prevOpcodeLsb := false, irqHoldoff := s.ctl.irqHoldoff || Config.tapDelay s.sys.draws } ∧
          t.sys = { s.sys with draws := s.sys.draws + 1 }) ∧
      (¬(s.cpu.ccr.i = true ∧ s.cpu.a.getLsbD 4 = false) →
        t.ctl = { s.ctl with prevOpcodeLsb := false } ∧ t.sys = s.sys))

/-! ### Interrupts, wait, halt, reset (60_exceptions.md, 70_reset_and_hazards.md) -/

/-- R361, R366, R369, R374, R381, R432, R464: an IRQ is present when other hardware or a device wired to IRQ holds the line
low, or a pulse is latched; the IRQ sequence; an NMI edge that a device makes while the frame is written takes it over. The
order of the bytes between PC and CCR in the frame (log 15), bits 7 and 6 of the stacked CCR (log 14) and the hidden opcode
bit after the sequence (log 21) are the model's. An IRQ pulse during the sequence is lost (R367, log 22). -/
def Obligations.IrqSequence : Prop :=
  ∀ s : State,
    (s.irqPresent = true ↔
      s.env.irqExt = true ∨ s.ctl.irqLatch = true ∨
        (∃ p ∈ s.sys.pias, (p.sideA.wire = .irq ∧ p.sideA.irqLow = true) ∨ (p.sideB.wire = .irq ∧ p.sideB.irqLow = true)) ∨
        ∃ p ∈ s.sys.acias, p.wire = .irq ∧ p.irqLow = true) ∧
    (Undisturbed s → s.ctl.runState = .running → s.sys.nmiLatch = false → s.cpu.ccr.i = false →
      s.irqPresent = true → s.ctl.irqHoldoff = false → s.ctl.haltHoldoff = false →
      let y := s.pulseE.clearNmi.framed s.cpu.pc
      let z := { y with nmiLatch := !y.nmiLatch && s.pulseE.sys.nmiLatch }
      let vector := if y.nmiLatch then 0xFFFC else 0xFFF8
      ∃ t, step s = .next t ∧ t.cpu = vectored s.cpu z vector ∧ t.ctl = afterVector s.ctl ∧
        t.env = { s.env with irqDuring := false } ∧
        t.sys = (z.read16 vector).2 ∧ SameBytesExcept (frameAddresses s.cpu.sp) s.sys t.sys)

/-- R364, R370, R373: the NMI sequence, whatever I is and whether or not an IRQ is present; both latches are cleared. The
same conventions as in the IRQ sequence are the model's (logs 14, 15, 21). An IRQ pulse during the sequence is lost (R367,
log 22). -/
def Obligations.NmiSequence : Prop :=
  ∀ s : State,
    Undisturbed s → s.ctl.runState = .running → s.sys.nmiLatch = true → s.ctl.haltHoldoff = false →
    let y := { s.pulseE.clearNmi.framed s.cpu.pc with nmiLatch := false }
    ∃ t, step s = .next t ∧ t.cpu = vectored s.cpu y 0xFFFC ∧
      t.ctl = { afterVector s.ctl with irqHoldoff := false } ∧ t.env = { s.env with irqDuring := false } ∧ t.sys = (y.read16 0xFFFC).2 ∧
      SameBytesExcept (frameAddresses s.cpu.sp) s.sys t.sys

/-- R386 to R388: a waiting machine leaves the wait state by NMI, or by IRQ while I = 0, with no second stacking; else it
stays as it is, but that an IRQ pulse of the step is latched while I = 0 (R367, log 22). The hidden opcode bit of R368 is
clear after both exits, which is the model's choice (log 21, D16), and so is that an NMI edge made at the E pulses of the
exit is consumed with the NMI (log 27). (HALT in the wait state: log 37.) -/
def Obligations.WaitStateExit : Prop :=
  ∀ s : State,
    Undisturbed s → s.ctl.runState = .waiting →
    let leaves := fun (y : System) (vector : Word) =>
      ∃ t, step s = .next t ∧
        t.cpu = { s.cpu with pc := (y.read16 vector).1, ccr := { s.cpu.ccr with i := true } } ∧
        t.ctl = { afterVector s.ctl with runState := .running } ∧ t.env = { s.env with irqDuring := false } ∧
        t.sys = (y.read16 vector).2 ∧ SameBytes s.sys t.sys
    (s.sys.nmiLatch = true → leaves { s.pulseE.sys with nmiLatch := false } 0xFFFC) ∧
    (s.sys.nmiLatch = false → s.cpu.ccr.i = false → s.irqPresent = true → leaves s.pulseE.sys 0xFFF8) ∧
    (s.sys.nmiLatch = false → s.cpu.ccr.i = true ∨ s.irqPresent = false →
      step s = .next { s with
        ctl := { s.ctl with irqLatch := s.ctl.irqLatch || (s.env.irqDuring && !s.cpu.ccr.i) }
        env := { s.env with irqDuring := false } })

/-- R368, R391: a hold-off passes over one boundary.  After a CLI that is held off an IRQ waits for the next instruction;
after a halt NMI and IRQ both do; the instruction that runs finds the hold-offs spent. -/
def Obligations.HoldoffsLastOneBoundary : Prop :=
  ∀ s : State,
    Undisturbed s → s.ctl.runState = .running →
    (s.ctl.irqHoldoff = true ∧ s.sys.nmiLatch = false) ∨ s.ctl.haltHoldoff = true →
    step s = s.clearHoldoffs.pulseE.runInstruction ∧ s.clearHoldoffs.ctl.irqHoldoff = false ∧
      s.clearHoldoffs.ctl.haltHoldoff = false

/-- R390 to R392: HALT low stops the machine at the boundary, and keeps it stopped, with nothing else changed, but that an
IRQ pulse of the step is latched while I = 0 (R367, log 22); when HALT is high again one instruction runs before any
interrupt is taken. -/
def Obligations.HaltState : Prop :=
  ∀ s : State,
    s.env.schedule = [] → s.env.resLow = false → s.env.tscHigh = false → s.env.nmiDuring = false →
    s.sys.resCut = none →
    (s.ctl.runState = .running ∨ s.ctl.runState = .halted → s.env.haltLow = true →
      step s = .next { s with
        ctl := { s.ctl with
                   runState := .halted, irqLatch := s.ctl.irqLatch || (s.env.irqDuring && !s.cpu.ccr.i) }
        env := { s.env with irqDuring := false } }) ∧
    (s.ctl.runState = .halted → s.env.haltLow = false →
      step s = { s with ctl := { s.ctl with runState := .running, irqHoldoff := false, haltHoldoff := false }
                 }.pulseE.runInstruction)

/-- R490, R491, R493: the reset sequence sets I, loads PC from FFFE and FFFF, clears the hidden state and stacks nothing;
the other registers and flags are free values (log 10); with HALT low the machine is left halted (R493); the hidden opcode
bit and the NMI latch after it are the model's (logs 21, 23, 27). An IRQ pulse during the sequence is lost (R367, log 22).
-/
def Obligations.ResetSequence : Prop :=
  ∀ s : State,
    s.env.schedule = [] → s.env.resLow = false → s.env.tscHigh = false → s.env.nmiDuring = false →
    s.sys.resCut = none → s.ctl.runState = .held →
    let y := { s.pulseE.sys with draws := s.sys.draws + 1, nmiLatch := false }
    ∃ t, step s = .next t ∧ t.cpu.pc = (y.read16 0xFFFE).1 ∧ t.cpu.ccr.i = true ∧
      t.cpu.ccr = resetFlags s.sys.draws ∧
      t.cpu.a = Config.resetA s.sys.draws ∧ t.cpu.b = Config.resetB s.sys.draws ∧
      t.cpu.x = Config.resetX s.sys.draws ∧ t.cpu.sp = Config.resetSP s.sys.draws ∧
      t.ctl = { runState := if s.env.haltLow then .halted else .running, irqLatch := false, irqHoldoff := false,
                haltHoldoff := false, prevOpcodeLsb := false } ∧
      t.env = { s.env with irqDuring := false } ∧ t.sys = (y.read16 0xFFFE).2 ∧ SameBytes s.sys t.sys

/-- R361, R376: a frame in read/write memory brings back the registers: SWI, then RTI in any later state that has SP and
the frame's bytes as SWI left them, restores A, B, X, the flags and SP, with PC after the SWI.  No other bus master steals a
cycle of the two instructions.  (The order of the frame's bytes is log 15's.) -/
def Obligations.InterruptThenReturn : Prop :=
  ∀ s t u : State,
    FrameInRam s.sys s.cpu.sp → s.sys.ram.wf = true → s.sys.resCut = none → s.sys.steals = [] →
    exec .swi s = .next t → u.cpu.sp = t.cpu.sp → u.sys.steals = [] →
    (∀ a ∈ frameAddresses s.cpu.sp, u.sys.cell a = t.sys.cell a) →
    ∃ w, exec .rti u = .next w ∧ w.cpu = { s.cpu with pc := s.cpu.pc + 1 }

/-! ### The whole machine -/

/-- R61, R372 and the canonical form of memory: the invariant is kept by every step from every state that has it. -/
def Obligations.InvariantKept : Prop := ∀ s t : State, s.Inv → step s = .next t → t.Inv

/-- The invariant holds at reset. -/
def Obligations.InvariantAtReset : Prop := State.reset.Inv

/-- R61, R63: no step changes a ROM cell, whatever the program and the environment do. -/
def Obligations.RomNeverChanges : Prop := ∀ s t : State, step s = .next t → t.sys.rom = s.sys.rom

/-- R28, R379: only CLI, TAP and RTI can clear I. -/
def Obligations.MaskClearedOnlyBy : Prop :=
  ∀ (i : Instr) (s t : State), exec i s = .next t → s.cpu.ccr.i = true → t.cpu.ccr.i = false →
    i = .cli ∨ i = .tap ∨ i = .rti

/-- R28: only ADD, ADC, ABA, TAP and RTI can change H. -/
def Obligations.HalfCarryChangedOnlyBy : Prop :=
  ∀ (i : Instr) (s t : State), exec i s = .next t → t.cpu.ccr.h ≠ s.cpu.ccr.h →
    (∃ r o, i = .dual .add r o ∨ i = .dual .adc r o) ∨ i = .aba ∨ i = .tap ∨ i = .rti

/-! ### The bus and the devices (20_memory.md, 60_exceptions.md) -/

/-- R61 to R63, R79, R542: a write of read/write memory is read back, at every address that reaches the cell; a device is
read and written through the register its address selects, and the NMI pin follows its output; ROM and unpopulated addresses
are not changed by a write; a read of nothing, or of a device the board does not have (log 5), is a free value (log 13); the
memory stays in canonical form.  A cycle that another master steals falls between two accesses of the MPU: one that is due is
made before the access, another waits for one access less (log 7). -/
def Obligations.BusReadWrite : Prop :=
  ∀ (y : System) (a b : Word) (v : Byte), y.resCut = none →
    (y.steals = [] →
      let nothing := y.write a v = y ∧ y.read a = (Config.floatingByte y.draws, { y with draws := y.draws + 1 })
      (∀ c, y.ram.wf = true → y.region a = .ram c → y.region b = .ram c → ((y.write a v).read b).1 = v) ∧
      (y.region b ≠ y.region a → (y.write a v).cell b = y.cell b) ∧
      (∀ c, y.region a = .rom c → y.write a v = y ∧ y.read a = (y.rom.read c, y)) ∧
      (∀ d rs, y.region a = .pia d rs →
        (∀ p, y.pias[d]? = some p →
          y.read a = ((p.read rs).1, { y with pias := y.pias.set d (p.read rs).2 }.noteNmi) ∧
            y.write a v = { y with pias := y.pias.set d (p.write rs v) }.noteNmi) ∧
        (y.pias[d]? = none → nothing)) ∧
      (∀ d rs, y.region a = .acia d rs →
        (∀ p, y.acias[d]? = some p →
          y.read a = ((p.read rs).1, { y with acias := y.acias.set d (p.read rs).2 }.noteNmi) ∧
            y.write a v = { y with acias := y.acias.set d (p.write rs v) }.noteNmi) ∧
        (y.acias[d]? = none → nothing)) ∧
      (y.region a = .unpopulated → nothing)) ∧
    (∀ x rest, y.steals = ⟨0, x⟩ :: rest →
      y.read a = { y.access x with steals := rest }.read a ∧
        y.write a v = { y.access x with steals := rest }.write a v) ∧
    (∀ n x rest, y.steals = ⟨n + 1, x⟩ :: rest →
      y.read a = { y with steals := ⟨n, x⟩ :: rest }.readUncut a ∧
        y.write a v = { y with steals := ⟨n, x⟩ :: rest }.store a v) ∧
    (y.ram.wf = true → (y.write a v).ram.wf = true)

/-- R425, R426, R431, R434, R437, R439: a read of a PIA output register returns the lines, clears both flags of its side
and, on side A, strobes CA2, and leaves everything else; a read of a direction register returns it and a read of a control
register returns flags and bits, b6 as 0 while C2 is an output (log 25), and neither changes anything.  Strobe modes and
overloaded pins: logs 26, 28. -/
def Obligations.PiaRegisterRead : Prop :=
  ∀ p : Pia,
    let modeA := p.sideA.cr.extractLsb' 3 3
    let control := fun q : PiaSide =>
      BitVec.ofBool q.irq1 ++ BitVec.ofBool (q.irq2 && !q.cr.getLsbD 5) ++ q.cr
    (p.sideA.cr.getLsbD 2 = true →
      (∀ k < 8, (p.read 0b00).1.getLsbD k =
        if p.sideA.ddr.getLsbD k then p.sideA.out.getLsbD k && !p.sideA.load.getLsbD k else p.sideA.pins.getLsbD k) ∧
      (p.read 0b00).2 = { p with
        sideA := { p.sideA with
          irq1 := false, irq2 := false
          c2 := if modeA = 0b100 then false else if modeA = 0b101 then true else p.sideA.c2
          strobes := if modeA = 0b101 then p.sideA.strobes + 1 else p.sideA.strobes } }) ∧
    (p.sideB.cr.getLsbD 2 = true →
      (∀ k < 8, (p.read 0b10).1.getLsbD k =
        if p.sideB.ddr.getLsbD k then p.sideB.out.getLsbD k else p.sideB.pins.getLsbD k) ∧
      (p.read 0b10).2 = { p with sideB := { p.sideB with irq1 := false, irq2 := false } }) ∧
    (p.sideA.cr.getLsbD 2 = false → p.read 0b00 = (p.sideA.ddr, p)) ∧
    (p.sideB.cr.getLsbD 2 = false → p.read 0b10 = (p.sideB.ddr, p)) ∧
    p.read 0b01 = (control p.sideA, p) ∧ p.read 0b11 = (control p.sideB, p)

/-- R423, R424, R430, R434, R438, R439, R440: a write of a direction register or an output register stores the byte and
nothing else, but that a write of output register B strobes CB2; a write of a control register stores its six bits, leaves
the flags and everything else, and moves C2 only where it selects a level: set/reset mode follows b3, and a strobe mode
entered from an input finds it high (log 26). -/
def Obligations.PiaRegisterWrite : Prop :=
  ∀ (p : Pia) (v : Byte),
    let modeB := p.sideB.cr.extractLsb' 3 3
    let controlled := fun q : PiaSide =>
      { q with
        cr := v.extractLsb' 0 6
        c2 := if v.extractLsb' 4 2 = 0b11 then v.getLsbD 3
              else if v.getLsbD 5 = true ∧ q.cr.getLsbD 5 = false then true
              else q.c2 }
    (p.sideA.cr.getLsbD 2 = false → p.write 0b00 v = { p with sideA := { p.sideA with ddr := v } }) ∧
    (p.sideB.cr.getLsbD 2 = false → p.write 0b10 v = { p with sideB := { p.sideB with ddr := v } }) ∧
    (p.sideA.cr.getLsbD 2 = true → p.write 0b00 v = { p with sideA := { p.sideA with out := v } }) ∧
    (p.sideB.cr.getLsbD 2 = true → p.write 0b10 v = { p with
      sideB := { p.sideB with
        out := v
        c2 := if modeB = 0b100 then false else if modeB = 0b101 then true else p.sideB.c2
        strobes := if modeB = 0b101 then p.sideB.strobes + 1 else p.sideB.strobes } }) ∧
    p.write 0b01 v = { p with sideA := controlled p.sideA } ∧ p.write 0b11 v = { p with sideB := controlled p.sideB }

/-- R428, R429, R431 to R433, R435, R437, R438, R441, R444: an active edge sets its flag, whether or not the interrupt is
enabled, and the one of C1 in handshake mode brings C2 back high; where no E pulse reaches the PIA it sets no flag (U24)
but waits for the next E pulse, which sets it unless it is one of C2 and C2 is an output by then, or is dropped if its
inactive edge starved too and the environment chooses so (log 27); an inactive edge sets nothing, nor does an edge of C2 as
an output (log 25); the interrupt output is low exactly for a set flag that is enabled; a write of a control register
leaves the flags, and one that enables a set flag, C1's by b0 or an input C2's by b3, pulls the output; a reset of the PIA
releases both outputs. -/
def Obligations.PiaInterruptFlags : Prop :=
  ∀ (p : Pia) (missed starve : Bool),
    let late := p.eGated && starve
    let edges := fun (c1 c2 : PiaLine) (q : PiaSide) (put : PiaSide → Pia) =>
      (p.edge c1 (q.cr.getLsbD 1) missed starve =
        if late = false then put { q with irq1 := true, c2 := if q.cr.extractLsb' 3 3 = 0b100 then true else q.c2 }
        else if missed = true ∧ q.starved1 = true then p
        else put { q with pending1 := true }) ∧
      (p.edge c1 (!q.cr.getLsbD 1) missed starve = put { q with starved1 := late }) ∧
      (q.cr.getLsbD 5 = false →
        (p.edge c2 (q.cr.getLsbD 4) missed starve =
          if late = false then put { q with irq2 := true }
          else if missed = true ∧ q.starved2 = true then p
          else put { q with pending2 := true }) ∧
        p.edge c2 (!q.cr.getLsbD 4) missed starve = put { q with starved2 := late }) ∧
      (q.cr.getLsbD 5 = true → ∀ rising : Bool, p.edge c2 rising missed starve = p) ∧
      (q.pulseE = { q with
        irq1 := q.irq1 || q.pending1, irq2 := q.irq2 || (q.pending2 && !q.cr.getLsbD 5)
        c2 := if q.pending1 = true ∧ q.cr.extractLsb' 3 3 = 0b100 then true else q.c2
        starved1 := false, starved2 := false, pending1 := false, pending2 := false }) ∧
      (q.irqLow = true ↔
        (q.irq1 = true ∧ q.cr.getLsbD 0 = true) ∨
          (q.irq2 = true ∧ q.cr.getLsbD 3 = true ∧ q.cr.getLsbD 5 = false))
    let written := fun (q r : PiaSide) (v : Byte) =>
      r.irq1 = q.irq1 ∧ r.irq2 = q.irq2 ∧ (q.irq1 = true → v.getLsbD 0 = true → r.irqLow = true) ∧
        (q.irq2 = true → v.getLsbD 5 = false → v.getLsbD 3 = true → r.irqLow = true)
    edges .ca1 .ca2 p.sideA (fun q => { p with sideA := q }) ∧
    edges .cb1 .cb2 p.sideB (fun q => { p with sideB := q }) ∧
    (∀ v : Byte, written p.sideA (p.write 0b01 v).sideA v ∧ written p.sideB (p.write 0b11 v).sideB v) ∧
    p.reset.sideA.irqLow = false ∧ p.reset.sideB.irqLow = false ∧ p.reset.sideA.control = 0 ∧
    p.reset.sideB.control = 0

/-- R451, R456 to R458, R460 to R464: the ACIA's two data registers, the flags their accesses move, and, in service, the
status byte, the interrupt output and the clearing of DCD by a status read and a data read.  Which character an overrun keeps
and the gating of DCD by b7 (log 30), the waiting character that a write replaces (log 31), the transmitter's environment
event (log 32) and the receive shift register (log 45) are the model's. -/
def Obligations.AciaDataRegisters : Prop :=
  ∀ (p : Acia) (c : Byte) (fe pe : Bool),
    (p.read true).1 = p.rdr ∧ (p.read true).2.rdrf = false ∧ (p.read true).2.ovrn = false ∧
    (p.write true c).tdr = c ∧ (p.write true c).tdre = false ∧
    (p.quiet = false → p.rdrf = false →
      p.rxChar c fe pe = { p with rdr := c, rdrf := true, fe := fe, pe := pe, rxShift := c, rxBusy := false }) ∧
    (p.quiet = false → p.rdrf = true → p.rxChar c fe pe = { p with ovrn := true, rxShift := c, rxBusy := false }) ∧
    (p.quiet = false → (p.write true c).txReady = { p with tdr := c, tdrEmpty := true, txShift := some c }) ∧
    (p.quiet = false →
      (p.irqLow = true ↔
        p.cr.getLsbD 7 = true ∧ (p.rdrf = true ∨ p.dcdFlag = true) ∨
          p.cr.extractLsb' 5 2 = 0b01 ∧ p.tdrEmpty = true ∧ p.ctsHigh = false) ∧
      (p.read false).1 = BitVec.ofBool p.irqLow ++ BitVec.ofBool p.pe ++ BitVec.ofBool p.ovrn ++ BitVec.ofBool p.fe ++
        BitVec.ofBool p.ctsHigh ++ BitVec.ofBool (p.dcdFlag || p.dcdHigh) ++ BitVec.ofBool (p.tdrEmpty && !p.ctsHigh) ++
        BitVec.ofBool p.rdrf) ∧
    (p.quiet = false → p.dcdHigh = false → (p.setDcd true).dcdFlag = true) ∧
    (p.dcdFlag = true →
      (p.read false).2 = { p with dcdArmed := true } ∧ ((p.read false).2.read true).2.dcdFlag = false) ∧
    (p.dcdArmed = false → (p.read true).2.dcdFlag = p.dcdFlag)

/-- R456, R459, R460, R464 to R466: an ACIA in master reset asks for no interrupt and its status is the CTS-bar level in b3;
the control word that ends a master reset finds the transmitter empty, and requests an interrupt if it enables the
transmitter's.  In the power-on hold it asks for no interrupt, and its status is the levels of CTS-bar and DCD-bar.  The
model's readings are in logs 33 and 34. -/
def Obligations.AciaMasterReset : Prop :=
  ∀ (p : Acia) (v w : Byte),
    (v.extractLsb' 0 2 = 0b11 → w.extractLsb' 0 2 ≠ 0b11 →
      (p.write false v).irqLow = false ∧
      (p.write false v).status = (if p.ctsHigh then 0x08 else 0x00) ∧
      ((p.write false v).write false w).tdre = !p.ctsHigh ∧
      ((p.write false v).write false w).rdrf = false ∧
      (((p.write false v).write false w).irqLow = (!p.ctsHigh && w.getLsbD 5 && !w.getLsbD 6))) ∧
    (p.hold = true →
      p.irqLow = false ∧ p.status = (if p.ctsHigh then 0x08 else 0x00) + if p.dcdHigh then 0x04 else 0x00)
end

