-- ==== Sys2Proof/Laws/Bits.lean ====
section
/-! SUPPORT. Splitting words into bytes and joining them again. -/

namespace Sys2Proof

@[simp] theorem joinBytes_high_low (w : Word) : joinBytes (highByte w) (lowByte w) = w := by
  apply BitVec.eq_of_toNat_eq
  simp only [joinBytes, highByte, lowByte, BitVec.toNat_append, BitVec.extractLsb'_toNat]
  rw [Nat.shiftLeft_add_eq_or_of_lt (by omega) _ |>.symm]
  have := w.isLt
  omega

@[simp] theorem highByte_joinBytes (hi lo : Byte) : highByte (joinBytes hi lo) = hi := by
  apply BitVec.eq_of_toNat_eq
  simp only [joinBytes, highByte, BitVec.toNat_append, BitVec.extractLsb'_toNat]
  rw [Nat.shiftLeft_add_eq_or_of_lt lo.isLt _ |>.symm]
  have := hi.isLt
  have := lo.isLt
  omega

@[simp] theorem lowByte_joinBytes (hi lo : Byte) : lowByte (joinBytes hi lo) = lo := by
  apply BitVec.eq_of_toNat_eq
  simp only [joinBytes, lowByte, BitVec.toNat_append, BitVec.extractLsb'_toNat]
  rw [Nat.shiftLeft_add_eq_or_of_lt lo.isLt _ |>.symm]
  have := lo.isLt
  omega

end Sys2Proof
end

