-- ==== Sys2Proof/Laws/Flags.lean ====
section
/-! SUPPORT. The bit formulas of the flags read as arithmetic: carries as sums that do not fit, overflows as signed
results that do not fit. -/

namespace Sys2Proof.Machine

/-- Bit 7 is the sign. -/
theorem getLsbD_seven (b : Byte) : b.getLsbD 7 = decide (128 ≤ b.toNat) := by
  rw [show b.getLsbD 7 = b.msb from (BitVec.msb_eq_getLsbD_last b).symm, BitVec.msb_eq_decide]

theorem msb_byte (b : Byte) : b.msb = b.getLsbD 7 := BitVec.msb_eq_getLsbD_last b

theorem msb_word (w : Word) : w.msb = w.getLsbD 15 := BitVec.msb_eq_getLsbD_last w

theorem toInt_byte (b : Byte) : b.toInt = if b.toNat < 128 then (b.toNat : Int) else b.toNat - 256 := by
  rw [BitVec.toInt_eq_toNat_cond]
  split <;> split <;> omega

/-- The result of an addition. -/
theorem add8_result (a m : Byte) (cin : Bool) (f : Ccr) :
    (add8 a m cin f).1 = BitVec.ofNat 8 (a.toNat + m.toNat + cin.toNat) := rfl

/-- V of an addition: the signed sum does not fit (R160). -/
theorem add8_overflow (a m : Byte) (cin : Bool) (f : Ccr) :
    (add8 a m cin f).2.v = decide ((add8 a m cin f).1.toInt ≠ a.toInt + m.toInt + cin.toNat) := by
  have ha := a.isLt
  have hm := m.isLt
  have hc : cin.toNat ≤ 1 := Bool.toNat_le cin
  have hr : (add8 a m cin f).1.toNat = (a.toNat + m.toNat + cin.toNat) % 256 := by simp [add8]
  simp only [toInt_byte, hr]
  simp only [add8, getLsbD_seven, BitVec.toNat_ofNat]
  rw [Bool.eq_iff_iff]
  simp only [Bool.or_eq_true, Bool.and_eq_true, Bool.not_eq_true', decide_eq_true_eq, decide_eq_false_iff_not]
  split <;> split <;> split <;> omega

/-- C of an addition: the unsigned sum does not fit (R160). -/
theorem add8_carry (a m : Byte) (cin : Bool) (f : Ccr) :
    (add8 a m cin f).2.c = decide ((add8 a m cin f).1.toNat ≠ a.toNat + m.toNat + cin.toNat) := by
  have ha := a.isLt
  have hm := m.isLt
  have hc : cin.toNat ≤ 1 := Bool.toNat_le cin
  simp only [add8, BitVec.toNat_ofNat, decide_eq_decide]
  omega

/-- The result of a subtraction, as a number. -/
theorem sub8_toNat (a m : Byte) (bin : Bool) (f : Ccr) :
    (sub8 a m bin f).1.toNat = (a.toNat + 512 - m.toNat - bin.toNat) % 256 := by
  have ha := a.isLt
  have hm := m.isLt
  have hb : bin.toNat ≤ 1 := Bool.toNat_le bin
  simp only [sub8, BitVec.toNat_ofInt]
  omega

/-- The result of a subtraction, as wrapping arithmetic. -/
theorem sub8_result (a m : Byte) (bin : Bool) (f : Ccr) :
    (sub8 a m bin f).1 = a - m - BitVec.ofNat 8 bin.toNat := by
  have hb : bin.toNat ≤ 1 := Bool.toNat_le bin
  have ha := a.isLt
  have hm := m.isLt
  apply BitVec.eq_of_toNat_eq
  rw [sub8_toNat]
  simp only [BitVec.toNat_sub, BitVec.toNat_ofNat]
  omega

/-- V of a subtraction: the signed difference does not fit (R161). -/
theorem sub8_overflow (a m : Byte) (bin : Bool) (f : Ccr) :
    (sub8 a m bin f).2.v = decide ((sub8 a m bin f).1.toInt ≠ a.toInt - m.toInt - bin.toNat) := by
  have ha := a.isLt
  have hm := m.isLt
  have hb : bin.toNat ≤ 1 := Bool.toNat_le bin
  have hv : (sub8 a m bin f).2.v =
      ((a.getLsbD 7 && !m.getLsbD 7 && !(sub8 a m bin f).1.getLsbD 7) ||
        (!a.getLsbD 7 && m.getLsbD 7 && (sub8 a m bin f).1.getLsbD 7)) := rfl
  rw [hv]
  simp only [toInt_byte, getLsbD_seven, sub8_toNat]
  rw [Bool.eq_iff_iff]
  simp only [Bool.or_eq_true, Bool.and_eq_true, Bool.not_eq_true', decide_eq_true_eq, decide_eq_false_iff_not]
  split <;> split <;> split <;> omega

/-- C of a subtraction: a borrow (R161). -/
theorem sub8_borrow (a m : Byte) (bin : Bool) (f : Ccr) :
    (sub8 a m bin f).2.c = decide (a.toNat < m.toNat + bin.toNat) := by
  have hb : bin.toNat ≤ 1 := Bool.toNat_le bin
  simp only [sub8, decide_eq_decide]
  omega

/-- An addition, with its flags read as arithmetic. -/
theorem add8_eq (a m : Byte) (cin : Bool) (f : Ccr) :
    add8 a m cin f =
      (BitVec.ofNat 8 (a.toNat + m.toNat + cin.toNat),
        let v := BitVec.ofNat 8 (a.toNat + m.toNat + cin.toNat)
        { f with
          h := decide (15 < a.toNat % 16 + m.toNat % 16 + cin.toNat)
          n := v.msb
          z := decide (v = 0)
          v := decide (v.toInt ≠ a.toInt + m.toInt + cin.toNat)
          c := decide (v.toNat ≠ a.toNat + m.toNat + cin.toNat) }) := by
  have hv := add8_overflow a m cin f
  have hc := add8_carry a m cin f
  rw [add8_result] at hv hc
  refine Prod.ext rfl ?_
  simp only [← hv, ← hc, msb_byte]
  rfl

/-- A subtraction, with its flags read as arithmetic. -/
theorem sub8_eq (a m : Byte) (bin : Bool) (f : Ccr) :
    sub8 a m bin f =
      (a - m - BitVec.ofNat 8 bin.toNat,
        let v := a - m - BitVec.ofNat 8 bin.toNat
        { f with
          n := v.msb
          z := decide (v = 0)
          v := decide (v.toInt ≠ a.toInt - m.toInt - bin.toNat)
          c := decide (a.toNat < m.toNat + bin.toNat) }) := by
  have hv := sub8_overflow a m bin f
  have hc := sub8_borrow a m bin f
  have hr := sub8_result a m bin f
  refine Prod.ext hr ?_
  simp only [← hr, ← hv, ← hc, msb_byte]
  rfl

/-- The CCR as a byte and back: bits 7 and 6 are not stored (R27). -/
@[simp] theorem Ccr.ofByte_toByte (f : Ccr) : Ccr.ofByte f.toByte = f := by
  obtain ⟨h, i, n, z, v, c⟩ := f
  cases h <;> cases i <;> cases n <;> cases z <;> cases v <;> cases c <;> decide

end Sys2Proof.Machine
end

