-- ==== Sys2Proof/Laws/Memory.lean ====
section
/-! SUPPORT. A memory reads what was written last, and every write keeps its canonical form. -/

namespace Sys2Proof.Machine

theorem Memory.read_cons_self (a : Word) (v : Byte) (m : Memory) (h : Memory.read m a = Memory.unlisted) :
    Memory.read (Memory.cons a.toNat v m) a = v := by
  unfold Memory.cons
  split
  · rw [h]; exact Eq.symm ‹_›
  · simp [Memory.read]

theorem Memory.read_cons_other (a : Word) (k : Nat) (v : Byte) (m : Memory) (h : k ≠ a.toNat) :
    Memory.read (Memory.cons k v m) a = Memory.read m a := by
  unfold Memory.cons
  split
  · rfl
  · simp [Memory.read, h]

/-- Below every listed address there is nothing listed. -/
theorem Memory.read_below (m : Memory) (a : Word) (h : ∀ p ∈ m, a.toNat < p.1) :
    Memory.read m a = Memory.unlisted := by
  induction m with
  | nil => rfl
  | cons p rest ih =>
    have hp := h p (by simp)
    simp only [Memory.read]
    rw [if_neg (by omega)]
    exact ih fun q hq => h q (by simp [hq])

/-- In a memory with rising addresses, everything after a cell lies above it. -/
theorem Memory.above_of_pairwise {p : Host.Cell} {rest : Memory}
    (h : (p :: rest).Pairwise fun x y => x.1 < y.1) : ∀ q ∈ rest, p.1 < q.1 :=
  (List.pairwise_cons.mp h).1

theorem Memory.pairwise_of_wf {m : Memory} (h : m.wf = true) : m.Pairwise fun x y => x.1 < y.1 := by
  simp only [Memory.wf, Bool.and_eq_true, decide_eq_true_eq] at h
  exact h.1

theorem Memory.read_write_self (m : Memory) (a : Word) (v : Byte) (h : m.Pairwise fun x y => x.1 < y.1) :
    Memory.read (Memory.write m a v) a = v := by
  induction m with
  | nil => exact Memory.read_cons_self a v [] rfl
  | cons p rest ih =>
    obtain ⟨k, b⟩ := p
    have above := Memory.above_of_pairwise h
    simp only [Memory.write]
    split
    · refine Memory.read_cons_self a v _ (Memory.read_below _ _ ?_)
      intro q hq
      rcases List.mem_cons.mp hq with rfl | hq
      · assumption
      · exact lt_trans ‹_› (above q hq)
    · split
      · rename_i _ hk
        subst hk
        exact Memory.read_cons_self a v _ (Memory.read_below _ _ above)
      · simp only [Memory.read]
        rw [if_neg (by omega)]
        exact ih (List.pairwise_cons.mp h).2

theorem Memory.read_write_other (m : Memory) (a b : Word) (v : Byte) (hab : a ≠ b) :
    Memory.read (Memory.write m a v) b = Memory.read m b := by
  have hne : a.toNat ≠ b.toNat := fun e => hab (BitVec.eq_of_toNat_eq e)
  induction m with
  | nil => exact Memory.read_cons_other b a.toNat v [] hne
  | cons p rest ih =>
    obtain ⟨k, c⟩ := p
    simp only [Memory.write]
    split
    · exact Memory.read_cons_other b a.toNat v _ hne
    · split
      · rename_i _ hk
        subst hk
        rw [Memory.read_cons_other b a.toNat v _ hne]
        simp [Memory.read, hne]
      · simp [Memory.read, ih]

theorem Memory.write_keys (m : Memory) (a : Word) (v : Byte) :
    ∀ p ∈ Memory.write m a v, p.1 = a.toNat ∨ p ∈ m := by
  have cons_keys : ∀ (k : Nat) (m : Memory), ∀ p ∈ Memory.cons k v m, p.1 = k ∨ p ∈ m := by
    intro k m p hp
    unfold Memory.cons at hp
    split at hp
    · exact .inr hp
    · rcases List.mem_cons.mp hp with rfl | hp
      · exact .inl rfl
      · exact .inr hp
  induction m with
  | nil => exact cons_keys _ _
  | cons q rest ih =>
    obtain ⟨k, b⟩ := q
    intro p hp
    simp only [Memory.write] at hp
    split at hp
    · exact cons_keys _ _ p hp
    · split at hp
      · rcases cons_keys _ _ p hp with h | h
        · rename_i _ hk
          exact .inl (h.trans hk.symm)
        · exact .inr (List.mem_cons_of_mem _ h)
      · rcases List.mem_cons.mp hp with rfl | hp
        · exact .inr (by simp)
        · rcases ih p hp with h | h
          · exact .inl h
          · exact .inr (List.mem_cons_of_mem _ h)

theorem Memory.write_pairwise (m : Memory) (a : Word) (v : Byte) (h : m.Pairwise fun x y => x.1 < y.1) :
    (Memory.write m a v).Pairwise fun x y => x.1 < y.1 := by
  have cons_pairwise : ∀ (k : Nat) (m : Memory), (m.Pairwise fun x y => x.1 < y.1) → (∀ p ∈ m, k < p.1) →
      (Memory.cons k v m).Pairwise fun x y => x.1 < y.1 := by
    intro k m hm hk
    unfold Memory.cons
    split
    · exact hm
    · exact List.pairwise_cons.mpr ⟨hk, hm⟩
  induction m with
  | nil => exact cons_pairwise _ _ h (by simp)
  | cons q rest ih =>
    obtain ⟨k, b⟩ := q
    have above := Memory.above_of_pairwise h
    have tail := (List.pairwise_cons.mp h).2
    simp only [Memory.write]
    split
    · refine cons_pairwise _ _ h ?_
      intro p hp
      rcases List.mem_cons.mp hp with rfl | hp
      · assumption
      · exact lt_trans ‹_› (above p hp)
    · split
      · exact cons_pairwise _ _ tail above
      · refine List.pairwise_cons.mpr ⟨?_, ih tail⟩
        intro p hp
        rcases Memory.write_keys rest a v p hp with e | hp
        · simp only at *
          omega
        · exact above p hp

theorem Memory.write_cells (m : Memory) (a : Word) (v : Byte)
    (h : ∀ p ∈ m, p.1 < 65536 ∧ p.2 ≠ Memory.unlisted) :
    ∀ p ∈ Memory.write m a v, p.1 < 65536 ∧ p.2 ≠ Memory.unlisted := by
  have cons_cells : ∀ (k : Nat) (m : Memory), k < 65536 → (∀ p ∈ m, p.1 < 65536 ∧ p.2 ≠ Memory.unlisted) →
      ∀ p ∈ Memory.cons k v m, p.1 < 65536 ∧ p.2 ≠ Memory.unlisted := by
    intro k m hk hm p hp
    unfold Memory.cons at hp
    split at hp
    · exact hm p hp
    · rcases List.mem_cons.mp hp with rfl | hp
      · exact ⟨hk, ‹_›⟩
      · exact hm p hp
  induction m with
  | nil => exact cons_cells _ _ a.isLt h
  | cons q rest ih =>
    obtain ⟨k, b⟩ := q
    have hq := h (k, b) (by simp)
    have hrest : ∀ p ∈ rest, p.1 < 65536 ∧ p.2 ≠ Memory.unlisted := fun p hp => h p (List.mem_cons_of_mem _ hp)
    simp only [Memory.write]
    split
    · exact cons_cells _ _ a.isLt h
    · split
      · exact cons_cells _ _ hq.1 hrest
      · intro p hp
        rcases List.mem_cons.mp hp with rfl | hp
        · exact hq
        · exact ih hrest p hp

theorem Memory.wf_iff (m : Memory) :
    m.wf = true ↔ (m.Pairwise fun x y => x.1 < y.1) ∧ ∀ p ∈ m, p.1 < 65536 ∧ p.2 ≠ Memory.unlisted := by
  simp [Memory.wf]

/-- Every write keeps the canonical form. -/
theorem Memory.write_wf (m : Memory) (a : Word) (v : Byte) (h : m.wf = true) : (Memory.write m a v).wf = true := by
  rw [Memory.wf_iff] at *
  exact ⟨Memory.write_pairwise m a v h.1, Memory.write_cells m a v h.2⟩

end Sys2Proof.Machine
end

