-- ==== Sys2Proof/Laws/Bus.lean ====
section
/-! SUPPORT. What one read and one write of the bus can do: a read changes no memory, a write changes one cell, unless
another bus master steals a cycle. -/

namespace Sys2Proof.Machine

section noteNmi
variable (y : System)

@[simp] theorem System.noteNmi_ram : y.noteNmi.ram = y.ram := rfl
@[simp] theorem System.noteNmi_rom : y.noteNmi.rom = y.rom := rfl
@[simp] theorem System.noteNmi_board : y.noteNmi.board = y.board := rfl
@[simp] theorem System.noteNmi_resCut : y.noteNmi.resCut = y.resCut := rfl
@[simp] theorem System.noteNmi_pias : y.noteNmi.pias = y.pias := rfl
@[simp] theorem System.noteNmi_acias : y.noteNmi.acias = y.acias := rfl
@[simp] theorem System.noteNmi_steals : y.noteNmi.steals = y.steals := rfl
@[simp] theorem System.noteNmi_draws : y.noteNmi.draws = y.draws := rfl

end noteNmi

/-- Everything a read can do: memories, board, the model's RES countdown and the steals to come are as before. -/
theorem System.readUncut_frame (y : System) (a : Word) :
    (y.readUncut a).2.ram = y.ram ∧ (y.readUncut a).2.rom = y.rom ∧ (y.readUncut a).2.board = y.board ∧
      (y.readUncut a).2.resCut = y.resCut ∧ (y.readUncut a).2.steals = y.steals := by
  unfold System.readUncut
  split <;> (try split) <;> simp

@[simp] theorem System.store_rom (y : System) (a : Word) (v : Byte) : (y.store a v).rom = y.rom := by
  unfold System.store; split <;> (try split) <;> simp

@[simp] theorem System.store_board (y : System) (a : Word) (v : Byte) : (y.store a v).board = y.board := by
  unfold System.store; split <;> (try split) <;> simp

@[simp] theorem System.store_resCut (y : System) (a : Word) (v : Byte) : (y.store a v).resCut = y.resCut := by
  unfold System.store; split <;> (try split) <;> simp

@[simp] theorem System.store_steals (y : System) (a : Word) (v : Byte) : (y.store a v).steals = y.steals := by
  unfold System.store; split <;> (try split) <;> simp

theorem System.store_ram_wf (y : System) (a : Word) (v : Byte) (h : y.ram.wf = true) :
    (y.store a v).ram.wf = true := by
  unfold System.store; split <;> (try split) <;> simp [Memory.write_wf, h]

/-! ### Other bus masters -/

/-- Everything an access of another master leaves alone. -/
theorem System.access_frame (y : System) (x : BusAccess) :
    (y.access x).rom = y.rom ∧ (y.access x).board = y.board ∧ (y.access x).resCut = y.resCut ∧
      (y.access x).steals = y.steals := by
  cases x with
  | read a => exact (y.readUncut_frame a).2
  | write a v => simp [System.access]

theorem System.access_ram_wf (y : System) (x : BusAccess) (h : y.ram.wf = true) : (y.access x).ram.wf = true := by
  cases x with
  | read a => rw [System.access, (y.readUncut_frame a).1, h]
  | write a v => exact y.store_ram_wf a v h

/-- Everything stolen cycles leave alone. -/
theorem System.grantSteals_frame (y : System) (l : List Steal) :
    (y.grantSteals l).rom = y.rom ∧ (y.grantSteals l).board = y.board ∧ (y.grantSteals l).resCut = y.resCut := by
  fun_induction System.grantSteals y l with
  | case1 => exact ⟨rfl, rfl, rfl⟩
  | case2 y x rest ih =>
    obtain ⟨h1, h2, h3, _⟩ := y.access_frame x
    rw [ih.1, ih.2.1, ih.2.2]
    exact ⟨h1, h2, h3⟩
  | case3 => exact ⟨rfl, rfl, rfl⟩

theorem System.grantSteals_ram_wf (y : System) (l : List Steal) (h : y.ram.wf = true) :
    (y.grantSteals l).ram.wf = true := by
  fun_induction System.grantSteals y l with
  | case1 => exact h
  | case2 y x rest ih => exact ih (y.access_ram_wf x h)
  | case3 => exact h

/-- What is done with the steals of a list does not depend on the steals the system held. -/
theorem System.grantSteals_steals (y : System) (l m : List Steal) :
    { y with steals := m }.grantSteals l = y.grantSteals l := by
  have access_steals : ∀ (z : System) (x : BusAccess), { z with steals := m }.access x = { z.access x with steals := m } := by
    intro z x
    cases x with
    | read a =>
      simp only [System.access, System.readUncut, System.region]
      split <;> (try split) <;> rfl
    | write a v =>
      simp only [System.access, System.store, System.region]
      split <;> (try split) <;> rfl
  fun_induction System.grantSteals y l with
  | case1 => rfl
  | case2 y x rest ih =>
    rw [System.grantSteals, access_steals]
    exact ih
  | case3 => rfl

@[simp] theorem System.grant_rom (y : System) : y.grant.rom = y.rom := (y.grantSteals_frame _).1
@[simp] theorem System.grant_board (y : System) : y.grant.board = y.board := (y.grantSteals_frame _).2.1
@[simp] theorem System.grant_resCut (y : System) : y.grant.resCut = y.resCut := (y.grantSteals_frame _).2.2

theorem System.grant_ram_wf (y : System) (h : y.ram.wf = true) : y.grant.ram.wf = true := y.grantSteals_ram_wf _ h

/-- With no cycle to steal nothing happens before an access of the MPU. -/
@[simp] theorem System.grant_of_none (y : System) (h : y.steals = []) : y.grant = y := by
  cases y
  simp only at h
  subst h
  rfl

/-- A steal that is due is made before the access. -/
theorem System.grant_due (y : System) (x : BusAccess) (rest : List Steal) (h : y.steals = ⟨0, x⟩ :: rest) :
    y.grant = { y.access x with steals := rest }.grant := by
  simp only [System.grant, h, System.grantSteals]
  exact ((y.access x).grantSteals_steals rest rest).symm

/-- A later one waits for one access less. -/
theorem System.grant_later (y : System) (n : Nat) (x : BusAccess) (rest : List Steal)
    (h : y.steals = ⟨n + 1, x⟩ :: rest) : y.grant = { y with steals := ⟨n, x⟩ :: rest } := by
  simp only [System.grant, h, System.grantSteals]

/-! ### Reads -/

@[simp] theorem System.read_rom (y : System) (a : Word) : (y.read a).2.rom = y.rom := by
  unfold System.read; split
  · rfl
  · simp [(y.grant.readUncut_frame a).2.1]

@[simp] theorem System.read_board (y : System) (a : Word) : (y.read a).2.board = y.board := by
  unfold System.read; split
  · rfl
  · simp [(y.grant.readUncut_frame a).2.2.1]

@[simp] theorem System.read_resCut (y : System) (a : Word) : (y.read a).2.resCut = y.resCut := by
  unfold System.read; split
  · rfl
  · simp [(y.grant.readUncut_frame a).2.2.2.1]

/-- A read changes no memory, unless another master steals a cycle before it. -/
@[simp] theorem System.read_ram (y : System) (a : Word) (h : y.steals = []) : (y.read a).2.ram = y.ram := by
  unfold System.read; split
  · rfl
  · rw [y.grant_of_none h, (y.readUncut_frame a).1]

@[simp] theorem System.read_steals (y : System) (a : Word) (h : y.steals = []) : (y.read a).2.steals = [] := by
  unfold System.read; split
  · exact h
  · rw [y.grant_of_none h, (y.readUncut_frame a).2.2.2.2, h]

theorem System.read_ram_wf (y : System) (a : Word) (h : y.ram.wf = true) : (y.read a).2.ram.wf = true := by
  unfold System.read; split
  · exact h
  · rw [(y.grant.readUncut_frame a).1]
    exact y.grant_ram_wf h

@[simp] theorem System.read_region (y : System) (a b : Word) : (y.read a).2.region b = y.region b := by
  simp [System.region]

/-- Cells depend on the board's map and the memories alone. -/
theorem System.cell_congr (y z : System) (hb : z.board.map = y.board.map) (hr : z.ram = y.ram) (ho : z.rom = y.rom)
    (a : Word) : z.cell a = y.cell a := by
  simp [System.cell, System.region, hb, hr, ho]

@[simp] theorem System.read_cell (y : System) (a b : Word) (h : y.steals = []) : (y.read a).2.cell b = y.cell b :=
  System.cell_congr _ _ (by simp) (y.read_ram a h) (by simp) b

/-- A read of a memory cell gives its byte and has no side effect. -/
theorem System.read_of_cell (y : System) (a : Word) (v : Byte) (hs : y.steals = []) (h : y.cell a = some v) :
    y.read a = (v, y) := by
  have hu : y.readUncut a = (v, y) := by
    unfold System.cell at h
    unfold System.readUncut
    split at h <;> simp_all
  unfold System.read
  rw [y.grant_of_none hs]
  split <;> simp [hu]

/-! ### Writes -/

/-- A store changes the cells of its own region alone. -/
theorem System.store_cell_other (y : System) (a b : Word) (v : Byte) (h : y.region b ≠ y.region a) :
    (y.store a v).cell b = y.cell b := by
  have hr : (y.store a v).region b = y.region b := by simp [System.region]
  unfold System.cell
  rw [hr]
  cases hb : y.region b <;> simp only [Option.some.injEq, System.store_rom]
  rename_i d
  cases ha : y.region a <;> simp only [System.store, ha]
  · rename_i c
    exact Memory.read_write_other _ _ _ _ fun e => h (by rw [hb, ha, e])
  all_goals split <;> simp

/-- Read/write memory holds what was stored, at every address of the cell. -/
theorem System.store_cell_self (y : System) (a b : Word) (v : Byte) (c : Word) (hw : y.ram.wf = true)
    (ha : y.region a = .ram c) (hb : y.region b = .ram c) : (y.store a v).cell b = some v := by
  have hr : (y.store a v).region b = .ram c := by simp [System.region, ← hb]
  have hm : (y.store a v).ram = y.ram.write c v := by simp [System.store, ha]
  simp only [System.cell, hr, hm]
  exact congrArg some (Memory.read_write_self _ _ _ (Memory.pairwise_of_wf hw))

@[simp] theorem System.write_rom (y : System) (a : Word) (v : Byte) : (y.write a v).rom = y.rom := by
  unfold System.write; split <;> simp

@[simp] theorem System.write_board (y : System) (a : Word) (v : Byte) : (y.write a v).board = y.board := by
  unfold System.write; split <;> simp

@[simp] theorem System.write_region (y : System) (a b : Word) (v : Byte) :
    (y.write a v).region b = y.region b := by
  simp [System.region]

theorem System.write_ram_wf (y : System) (a : Word) (v : Byte) (h : y.ram.wf = true) :
    (y.write a v).ram.wf = true := by
  unfold System.write; split
  · exact h
  · exact System.store_ram_wf y.grant a v (y.grant_ram_wf h)

/-- With no RES inside the instruction, a write is a store, after what another master does. -/
theorem System.write_of_uncut (y : System) (a : Word) (v : Byte) (h : y.resCut = none) :
    y.write a v = y.grant.store a v := by
  have hs : (y.grant.store a v).resCut = none := by simp [h]
  have hcut : y.cut = false := by simp [System.cut, h]
  unfold System.write
  rw [hcut, h]
  generalize y.grant.store a v = z at hs
  cases z
  simp_all

theorem System.write_resCut_none (y : System) (a : Word) (v : Byte) (h : y.resCut = none) :
    (y.write a v).resCut = none := by
  rw [System.write_of_uncut y a v h, System.store_resCut, y.grant_resCut, h]

@[simp] theorem System.write_steals (y : System) (a : Word) (v : Byte) (h : y.steals = []) :
    (y.write a v).steals = [] := by
  unfold System.write; split
  · exact h
  · simp [h]

theorem System.write_cell_other (y : System) (a b : Word) (v : Byte) (hs : y.steals = [])
    (h : y.region b ≠ y.region a) : (y.write a v).cell b = y.cell b := by
  unfold System.write; split
  · rfl
  · rw [y.grant_of_none hs]
    exact System.store_cell_other y a b v h

theorem System.write_cell_self (y : System) (a b : Word) (v : Byte) (c : Word) (hw : y.ram.wf = true)
    (hc : y.resCut = none) (hs : y.steals = []) (ha : y.region a = .ram c) (hb : y.region b = .ram c) :
    (y.write a v).cell b = some v := by
  rw [System.write_of_uncut y a v hc, y.grant_of_none hs]
  exact System.store_cell_self y a b v c hw ha hb

@[simp] theorem System.read16_ram (y : System) (a : Word) (h : y.steals = []) : (y.read16 a).2.ram = y.ram := by
  simp [System.read16, h]
@[simp] theorem System.read16_steals (y : System) (a : Word) (h : y.steals = []) : (y.read16 a).2.steals = [] := by
  simp [System.read16, h]
@[simp] theorem System.read16_rom (y : System) (a : Word) : (y.read16 a).2.rom = y.rom := by simp [System.read16]
@[simp] theorem System.read16_board (y : System) (a : Word) : (y.read16 a).2.board = y.board := by
  simp [System.read16]
@[simp] theorem System.read16_resCut (y : System) (a : Word) : (y.read16 a).2.resCut = y.resCut := by
  simp [System.read16]
@[simp] theorem System.read16_cell (y : System) (a b : Word) (h : y.steals = []) :
    (y.read16 a).2.cell b = y.cell b := by
  simp [System.read16, h]

end Sys2Proof.Machine
end

