-- ==== Sys2Proof/Laws/State.lean ====
section
/-! SUPPORT. What each update of the state leaves in each field: true by unfolding once, for `simp`. -/

namespace Sys2Proof.Machine

section
variable (s : State)

@[simp] theorem State.advance_cpu (op : Byte) (n : Word) :
    (s.advance op n).cpu = { s.cpu with pc := s.cpu.pc + n } := rfl
@[simp] theorem State.advance_ctl (op : Byte) (n : Word) :
    (s.advance op n).ctl = { s.ctl with prevOpcodeLsb := op.getLsbD 0 } := rfl
@[simp] theorem State.advance_sys (op : Byte) (n : Word) : (s.advance op n).sys = s.sys := rfl
@[simp] theorem State.advance_env (op : Byte) (n : Word) : (s.advance op n).env = s.env := rfl

@[simp] theorem State.setCpu_cpu (p : Cpu) : (s.setCpu p).cpu = p := rfl
@[simp] theorem State.setCpu_ctl (p : Cpu) : (s.setCpu p).ctl = s.ctl := rfl
@[simp] theorem State.setCpu_sys (p : Cpu) : (s.setCpu p).sys = s.sys := rfl
@[simp] theorem State.setCpu_env (p : Cpu) : (s.setCpu p).env = s.env := rfl

@[simp] theorem State.setCcr_cpu (f : Ccr) : (s.setCcr f).cpu = { s.cpu with ccr := f } := rfl
@[simp] theorem State.setCcr_ctl (f : Ccr) : (s.setCcr f).ctl = s.ctl := rfl
@[simp] theorem State.setCcr_sys (f : Ccr) : (s.setCcr f).sys = s.sys := rfl
@[simp] theorem State.setCcr_env (f : Ccr) : (s.setCcr f).env = s.env := rfl

@[simp] theorem State.jump_cpu (w : Word) : (s.jump w).cpu = { s.cpu with pc := w } := rfl
@[simp] theorem State.jump_ctl (w : Word) : (s.jump w).ctl = s.ctl := rfl
@[simp] theorem State.jump_sys (w : Word) : (s.jump w).sys = s.sys := rfl
@[simp] theorem State.jump_env (w : Word) : (s.jump w).env = s.env := rfl

@[simp] theorem State.write_cpu (w : Word) (v : Byte) : (s.write w v).cpu = s.cpu := rfl
@[simp] theorem State.write_ctl (w : Word) (v : Byte) : (s.write w v).ctl = s.ctl := rfl
@[simp] theorem State.write_sys (w : Word) (v : Byte) : (s.write w v).sys = s.sys.write w v := rfl
@[simp] theorem State.write_env (w : Word) (v : Byte) : (s.write w v).env = s.env := rfl

@[simp] theorem State.write16_cpu (w v : Word) : (s.write16 w v).cpu = s.cpu := rfl
@[simp] theorem State.write16_ctl (w v : Word) : (s.write16 w v).ctl = s.ctl := rfl
@[simp] theorem State.write16_sys (w v : Word) : (s.write16 w v).sys = s.sys.write16 w v := rfl
@[simp] theorem State.write16_env (w v : Word) : (s.write16 w v).env = s.env := rfl

@[simp] theorem State.push8_cpu (v : Byte) : (s.push8 v).cpu = { s.cpu with sp := s.cpu.sp - 1 } := rfl
@[simp] theorem State.push8_ctl (v : Byte) : (s.push8 v).ctl = s.ctl := rfl
@[simp] theorem State.push8_sys (v : Byte) : (s.push8 v).sys = s.sys.write s.cpu.sp v := rfl
@[simp] theorem State.push8_env (v : Byte) : (s.push8 v).env = s.env := rfl

@[simp] theorem State.clearNmi_cpu : (s.clearNmi).cpu = s.cpu := rfl
@[simp] theorem State.clearNmi_ctl : (s.clearNmi).ctl = s.ctl := rfl
@[simp] theorem State.clearNmi_sys : (s.clearNmi).sys = { s.sys with nmiLatch := false } := rfl
@[simp] theorem State.clearNmi_env : (s.clearNmi).env = s.env := rfl

@[simp] theorem State.restoreNmi_cpu (b : Bool) : (s.restoreNmi b).cpu = s.cpu := rfl
@[simp] theorem State.restoreNmi_ctl (b : Bool) : (s.restoreNmi b).ctl = s.ctl := rfl
@[simp] theorem State.restoreNmi_sys (b : Bool) : (s.restoreNmi b).sys = { s.sys with nmiLatch := b } := rfl
@[simp] theorem State.restoreNmi_env (b : Bool) : (s.restoreNmi b).env = s.env := rfl

@[simp] theorem State.leaveWait_cpu : (s.leaveWait).cpu = s.cpu := rfl
@[simp] theorem State.leaveWait_ctl : (s.leaveWait).ctl = { s.ctl with runState := .running } := rfl
@[simp] theorem State.leaveWait_sys : (s.leaveWait).sys = s.pulseE.sys := rfl
@[simp] theorem State.leaveWait_env : (s.leaveWait).env = s.env := rfl

@[simp] theorem State.clearHoldoffs_cpu : (s.clearHoldoffs).cpu = s.cpu := rfl
@[simp] theorem State.clearHoldoffs_ctl :
    (s.clearHoldoffs).ctl = { s.ctl with irqHoldoff := false, haltHoldoff := false } := rfl
@[simp] theorem State.clearHoldoffs_sys : (s.clearHoldoffs).sys = s.sys := rfl
@[simp] theorem State.clearHoldoffs_env : (s.clearHoldoffs).env = s.env := rfl

@[simp] theorem State.pulseE_cpu : (s.pulseE).cpu = s.cpu := rfl
@[simp] theorem State.pulseE_ctl : (s.pulseE).ctl = s.ctl := rfl
@[simp] theorem State.pulseE_sys : (s.pulseE).sys = { s.sys with pias := s.sys.pias.map Pia.pulseE }.noteNmi := rfl
@[simp] theorem State.pulseE_env : (s.pulseE).env = s.env := rfl

@[simp] theorem State.leaveHalt_cpu : (s.leaveHalt).cpu = s.cpu := rfl
@[simp] theorem State.leaveHalt_ctl :
    (s.leaveHalt).ctl = { s.ctl with runState := .running, haltHoldoff := true } := rfl
@[simp] theorem State.leaveHalt_sys : (s.leaveHalt).sys = s.sys := rfl
@[simp] theorem State.leaveHalt_env : (s.leaveHalt).env = s.env := rfl

@[simp] theorem State.enterHalt_cpu : (s.enterHalt).cpu = s.cpu := rfl
@[simp] theorem State.enterHalt_ctl : (s.enterHalt).ctl = { s.ctl with runState := .halted } := rfl
@[simp] theorem State.enterHalt_sys : (s.enterHalt).sys = s.sys := rfl
@[simp] theorem State.enterHalt_env : (s.enterHalt).env = s.env := rfl

@[simp] theorem State.irqPulse_cpu : (s.irqPulse).cpu = s.cpu := rfl
@[simp] theorem State.irqPulse_ctl :
    (s.irqPulse).ctl = { s.ctl with irqLatch := s.ctl.irqLatch || !s.cpu.ccr.i } := rfl
@[simp] theorem State.irqPulse_sys : (s.irqPulse).sys = s.sys := rfl
@[simp] theorem State.irqPulse_env : (s.irqPulse).env = s.env := rfl

@[simp] theorem State.pulseDuring_cpu : (s.pulseDuring).cpu = s.cpu := rfl
@[simp] theorem State.pulseDuring_ctl :
    (s.pulseDuring).ctl = { s.ctl with irqLatch := s.ctl.irqLatch || (s.env.irqDuring && !s.cpu.ccr.i) } := rfl
@[simp] theorem State.pulseDuring_sys : (s.pulseDuring).sys = s.sys := rfl
@[simp] theorem State.pulseDuring_env : (s.pulseDuring).env = { s.env with irqDuring := false } := rfl

@[simp] theorem State.read_fst (w : Word) : (s.read w).1 = (s.sys.read w).1 := rfl
@[simp] theorem State.read_cpu (w : Word) : (s.read w).2.cpu = s.cpu := rfl
@[simp] theorem State.read_ctl (w : Word) : (s.read w).2.ctl = s.ctl := rfl
@[simp] theorem State.read_sys (w : Word) : (s.read w).2.sys = (s.sys.read w).2 := rfl
@[simp] theorem State.read_env (w : Word) : (s.read w).2.env = s.env := rfl

@[simp] theorem State.read16_fst (w : Word) : (s.read16 w).1 = (s.sys.read16 w).1 := rfl
@[simp] theorem State.read16_cpu (w : Word) : (s.read16 w).2.cpu = s.cpu := rfl
@[simp] theorem State.read16_ctl (w : Word) : (s.read16 w).2.ctl = s.ctl := rfl
@[simp] theorem State.read16_sys (w : Word) : (s.read16 w).2.sys = (s.sys.read16 w).2 := rfl
@[simp] theorem State.read16_env (w : Word) : (s.read16 w).2.env = s.env := rfl

@[simp] theorem State.pull8_fst : s.pull8.1 = (s.sys.read (s.cpu.sp + 1)).1 := rfl
@[simp] theorem State.pull8_cpu : s.pull8.2.cpu = { s.cpu with sp := s.cpu.sp + 1 } := rfl
@[simp] theorem State.pull8_ctl : s.pull8.2.ctl = s.ctl := rfl
@[simp] theorem State.pull8_sys : s.pull8.2.sys = (s.sys.read (s.cpu.sp + 1)).2 := rfl
@[simp] theorem State.pull8_env : s.pull8.2.env = s.env := rfl

@[simp] theorem State.enterVector_cpu (v : Word) :
    (s.enterVector v).cpu = { s.cpu with pc := (s.sys.read16 v).1, ccr := { s.cpu.ccr with i := true } } := rfl
@[simp] theorem State.enterVector_ctl (v : Word) :
    (s.enterVector v).ctl = { s.ctl with irqLatch := false, prevOpcodeLsb := false } := rfl
@[simp] theorem State.enterVector_sys (v : Word) : (s.enterVector v).sys = (s.sys.read16 v).2 := rfl
@[simp] theorem State.enterVector_env (v : Word) : (s.enterVector v).env = s.env := rfl

end

section
variable (p : Cpu) (r : Acc) (v : Byte)

@[simp] theorem Cpu.acc_a : p.acc .a = p.a := rfl
@[simp] theorem Cpu.acc_b : p.acc .b = p.b := rfl
@[simp] theorem Cpu.setAcc_a : p.setAcc .a v = { p with a := v } := rfl
@[simp] theorem Cpu.setAcc_b : p.setAcc .b v = { p with b := v } := rfl
@[simp] theorem Cpu.setAcc_x : (p.setAcc r v).x = p.x := by cases r <;> rfl
@[simp] theorem Cpu.setAcc_sp : (p.setAcc r v).sp = p.sp := by cases r <;> rfl
@[simp] theorem Cpu.setAcc_pc : (p.setAcc r v).pc = p.pc := by cases r <;> rfl
@[simp] theorem Cpu.setAcc_ccr : (p.setAcc r v).ccr = p.ccr := by cases r <;> rfl
@[simp] theorem Cpu.acc_setAcc : (p.setAcc r v).acc r = v := by cases r <;> rfl

/-- The address of an operand does not depend on PC. -/
@[simp] theorem Cpu.ea_pc (w : Word) (e : Ea) : ({ p with pc := w } : Cpu).ea e = p.ea e := by cases e <;> rfl

end

end Sys2Proof.Machine
end

