-- ==== Sys2Proof/Laws/Operands.lean ====
section
/-! SUPPORT. What the shared shapes of the instruction families can do, field by field: the lemmas a proof about an
instruction cites instead of unfolding them. -/

namespace Sys2Proof.Machine

/-- A read of a memory cell by the MPU gives its byte and changes nothing. -/
theorem State.read_of_cell (s : State) (a : Word) (v : Byte) (hs : s.sys.steals = []) (h : s.sys.cell a = some v) :
    s.read a = (v, s) := by
  unfold State.read
  rw [System.read_of_cell s.sys a v hs h]

section load
variable (s : State)

@[simp] theorem State.load8_cpu (o : Operand8) : (s.load8 o).2.cpu = s.cpu := by cases o <;> rfl
@[simp] theorem State.load8_ctl (o : Operand8) : (s.load8 o).2.ctl = s.ctl := by cases o <;> rfl
@[simp] theorem State.load8_env (o : Operand8) : (s.load8 o).2.env = s.env := by cases o <;> rfl
@[simp] theorem State.load16_cpu (o : Operand16) : (s.load16 o).2.cpu = s.cpu := by cases o <;> rfl
@[simp] theorem State.load16_ctl (o : Operand16) : (s.load16 o).2.ctl = s.ctl := by cases o <;> rfl
@[simp] theorem State.load16_env (o : Operand16) : (s.load16 o).2.env = s.env := by cases o <;> rfl

@[simp] theorem State.load8_cell (o : Operand8) (a : Word) (h : s.sys.steals = []) :
    (s.load8 o).2.sys.cell a = s.sys.cell a := by
  cases o <;> simp [State.load8, h]

@[simp] theorem State.load16_cell (o : Operand16) (a : Word) (h : s.sys.steals = []) :
    (s.load16 o).2.sys.cell a = s.sys.cell a := by
  cases o <;> simp [State.load16, h]

/-- Moving past the instruction's bytes changes no operand. -/
@[simp] theorem State.advance_load8_fst (op : Byte) (n : Word) (o : Operand8) :
    ((s.advance op n).load8 o).1 = (s.load8 o).1 := by
  cases o <;> simp [State.load8]

@[simp] theorem State.advance_load8_sys (op : Byte) (n : Word) (o : Operand8) :
    ((s.advance op n).load8 o).2.sys = (s.load8 o).2.sys := by
  cases o <;> simp [State.load8]

@[simp] theorem State.advance_load16_fst (op : Byte) (n : Word) (o : Operand16) :
    ((s.advance op n).load16 o).1 = (s.load16 o).1 := by
  cases o <;> simp [State.load16]

@[simp] theorem State.advance_load16_sys (op : Byte) (n : Word) (o : Operand16) :
    ((s.advance op n).load16 o).2.sys = (s.load16 o).2.sys := by
  cases o <;> simp [State.load16]

end load

/-- All that an operation with an accumulator destination can do. -/
theorem State.accOp_spec (s : State) (f : Byte → Byte → Ccr → Alu) (r : Acc) (o : Operand8) :
    (s.accOp f r o).cpu =
        ({ s.cpu with ccr := (f (s.cpu.acc r) (s.load8 o).1 s.cpu.ccr).2 } : Cpu).setAcc r
          (f (s.cpu.acc r) (s.load8 o).1 s.cpu.ccr).1 ∧
      (s.accOp f r o).sys = (s.load8 o).2.sys ∧ (s.accOp f r o).ctl = s.ctl ∧ (s.accOp f r o).env = s.env := by
  simp [State.accOp]

/-- All that a test of an accumulator can do. -/
theorem State.accTest_spec (s : State) (f : Byte → Byte → Ccr → Alu) (r : Acc) (o : Operand8) :
    (s.accTest f r o).cpu = { s.cpu with ccr := (f (s.cpu.acc r) (s.load8 o).1 s.cpu.ccr).2 } ∧
      (s.accTest f r o).sys = (s.load8 o).2.sys ∧ (s.accTest f r o).ctl = s.ctl ∧ (s.accTest f r o).env = s.env := by
  simp [State.accTest]

/-- All that the accumulator form of a single-operand operation can do. -/
theorem State.accUnary_spec (s : State) (f : Byte → Ccr → Alu) (r : Acc) :
    (s.accUnary f r).cpu =
        ({ s.cpu with ccr := (f (s.cpu.acc r) s.cpu.ccr).2 } : Cpu).setAcc r (f (s.cpu.acc r) s.cpu.ccr).1 ∧
      (s.accUnary f r).sys = s.sys ∧ (s.accUnary f r).ctl = s.ctl ∧ (s.accUnary f r).env = s.env := by
  simp [State.accUnary]

/-- All that the memory form of a single-operand operation can do. -/
theorem State.memUnary_spec (s : State) (f : Byte → Ccr → Alu) (e : Ea) :
    (s.memUnary f e).cpu = { s.cpu with ccr := (f (s.sys.read (s.cpu.ea e)).1 s.cpu.ccr).2 } ∧
      (s.memUnary f e).sys =
        (s.sys.read (s.cpu.ea e)).2.write (s.cpu.ea e) (f (s.sys.read (s.cpu.ea e)).1 s.cpu.ccr).1 ∧
      (s.memUnary f e).ctl = s.ctl ∧ (s.memUnary f e).env = s.env := by
  simp [State.memUnary]

/-- All that CLR on memory can do. -/
theorem State.memClear_spec (s : State) (e : Ea) :
    (s.memClear e).cpu = { s.cpu with ccr := { s.cpu.ccr with n := false, z := true, v := false, c := false } } ∧
      (s.memClear e).sys =
        (if s.sys.board.clrReadsFirst then (s.sys.read (s.cpu.ea e)).2 else s.sys).write (s.cpu.ea e) 0 ∧
      (s.memClear e).ctl = s.ctl ∧ (s.memClear e).env = s.env := by
  unfold State.memClear
  split <;> simp_all [aluClr]

/-- All that TST on memory can do. -/
theorem State.memTest_spec (s : State) (e : Ea) :
    (s.memTest e).cpu = { s.cpu with ccr := (aluTst (s.sys.read (s.cpu.ea e)).1 s.cpu.ccr).2 } ∧
      (s.memTest e).sys =
        (if s.sys.board.tstWritesBack then
          (s.sys.read (s.cpu.ea e)).2.write (s.cpu.ea e) (s.sys.read (s.cpu.ea e)).1
        else (s.sys.read (s.cpu.ea e)).2) ∧
      (s.memTest e).ctl = s.ctl ∧ (s.memTest e).env = s.env := by
  unfold State.memTest
  split <;> simp_all

/-- All that STA can do. -/
theorem State.storeAcc_spec (s : State) (r : Acc) (e : Ea) :
    (s.storeAcc r e).cpu = { s.cpu with ccr := logicNZ (s.cpu.acc r) s.cpu.ccr } ∧
      (s.storeAcc r e).sys = s.sys.write (s.cpu.ea e) (s.cpu.acc r) ∧ (s.storeAcc r e).ctl = s.ctl ∧
      (s.storeAcc r e).env = s.env := by
  simp [State.storeAcc]

/-- All that a 16-bit store can do. -/
theorem State.storeWord_spec (s : State) (v : Word) (e : Ea) :
    (s.storeWord v e).cpu = { s.cpu with ccr := move16Flags v s.cpu.ccr } ∧
      (s.storeWord v e).sys = (s.sys.write (s.cpu.ea e) (highByte v)).write (s.cpu.ea e + 1) (lowByte v) ∧
      (s.storeWord v e).ctl = s.ctl ∧ (s.storeWord v e).env = s.env := by
  simp [State.storeWord, System.write16]

/-- All that a branch can do: PC alone. -/
theorem State.branch_spec (s : State) (c : Cond) (rel : Byte) :
    s.branch c rel = s.jump (if condHolds c s.cpu.ccr then s.cpu.pc + sext16 rel else s.cpu.pc) := by
  unfold State.branch
  split <;> rfl

/-- All that a call can do. -/
theorem State.call_spec (s : State) (target : Word) :
    (s.call target).cpu = { s.cpu with sp := s.cpu.sp - 1 - 1, pc := target } ∧
      (s.call target).sys =
        (s.sys.write s.cpu.sp (lowByte s.cpu.pc)).write (s.cpu.sp - 1) (highByte s.cpu.pc) ∧
      (s.call target).ctl = s.ctl ∧ (s.call target).env = s.env := by
  simp [State.call, State.push16]

/-- All that a 16-bit pull can do. -/
theorem State.pull16_spec (s : State) :
    s.pull16.1 = joinBytes (s.sys.read (s.cpu.sp + 1)).1 ((s.sys.read (s.cpu.sp + 1)).2.read (s.cpu.sp + 1 + 1)).1 ∧
      s.pull16.2.cpu = { s.cpu with sp := s.cpu.sp + 1 + 1 } ∧
      s.pull16.2.sys = ((s.sys.read (s.cpu.sp + 1)).2.read (s.cpu.sp + 1 + 1)).2 ∧
      s.pull16.2.ctl = s.ctl ∧ s.pull16.2.env = s.env := by
  simp [State.pull16]

end Sys2Proof.Machine
end

