-- ==== Sys2Proof/Laws/Interrupts.lean ====
section
/-! SUPPORT. What stacking, entering a vector and returning can do: the interrupt frame as a list of writes. -/

namespace Sys2Proof.Machine

@[simp] theorem System.writes_nil (y : System) : y.writes [] = y := rfl

@[simp] theorem System.writes_cons (y : System) (p : Word × Byte) (l : List (Word × Byte)) :
    y.writes (p :: l) = (y.write p.1 p.2).writes l := rfl

@[simp] theorem System.writes_board (y : System) (l : List (Word × Byte)) : (y.writes l).board = y.board := by
  induction l generalizing y with
  | nil => rfl
  | cons p l ih => simp [ih]

@[simp] theorem System.writes_rom (y : System) (l : List (Word × Byte)) : (y.writes l).rom = y.rom := by
  induction l generalizing y with
  | nil => rfl
  | cons p l ih => simp [ih]

@[simp] theorem System.writes_region (y : System) (l : List (Word × Byte)) (a : Word) :
    (y.writes l).region a = y.region a := by
  simp [System.region]

theorem System.writes_ram_wf (y : System) (l : List (Word × Byte)) (h : y.ram.wf = true) :
    (y.writes l).ram.wf = true := by
  induction l generalizing y with
  | nil => exact h
  | cons p l ih => exact ih _ (System.write_ram_wf y p.1 p.2 h)

theorem System.writes_resCut_none (y : System) (l : List (Word × Byte)) (h : y.resCut = none) :
    (y.writes l).resCut = none := by
  induction l generalizing y with
  | nil => exact h
  | cons p l ih => exact ih _ (System.write_resCut_none y p.1 p.2 h)

theorem System.writes_steals (y : System) (l : List (Word × Byte)) (h : y.steals = []) :
    (y.writes l).steals = [] := by
  induction l generalizing y with
  | nil => exact h
  | cons p l ih => exact ih _ (System.write_steals y p.1 p.2 h)

/-- Writes change only the cells of the regions they go to. -/
theorem System.writes_cell_other (y : System) (l : List (Word × Byte)) (a : Word) (hs : y.steals = [])
    (h : ∀ p ∈ l, y.region a ≠ y.region p.1) : (y.writes l).cell a = y.cell a := by
  induction l generalizing y with
  | nil => rfl
  | cons p l ih =>
    rw [System.writes_cons, ih _ (System.write_steals y p.1 p.2 hs) fun q hq => by simpa using h q (by simp [hq])]
    exact System.write_cell_other y p.1 a p.2 hs (h p (by simp))

/-- Writes to different cells of read/write memory all stay. -/
theorem System.writes_cell_self (y : System) (l : List (Word × Byte)) (hw : y.ram.wf = true)
    (hc : y.resCut = none) (hs : y.steals = []) (hp : l.Pairwise fun p q => y.region p.1 ≠ y.region q.1)
    (hr : ∀ p ∈ l, ∃ c, y.region p.1 = .ram c) : ∀ p ∈ l, (y.writes l).cell p.1 = some p.2 := by
  induction l generalizing y with
  | nil => simp
  | cons p l ih =>
    rw [List.pairwise_cons] at hp
    intro q hq
    rcases List.mem_cons.mp hq with rfl | hq
    · obtain ⟨c, hcell⟩ := hr q (by simp)
      rw [System.writes_cons, System.writes_cell_other _ _ _ (System.write_steals y q.1 q.2 hs)]
      · exact System.write_cell_self y q.1 q.1 q.2 c hw hc hs hcell hcell
      · intro p' hp'
        simpa using hp.1 p' hp'
    · refine ih _ (System.write_ram_wf y _ _ hw) (System.write_resCut_none y _ _ hc) (System.write_steals y _ _ hs) ?_ ?_ q hq
      · simpa using hp.2
      · intro p' hp'
        simpa using hr p' (by simp [hp'])

/-- One push of a chain: where the registers but SP are `p`. -/
theorem State.push8_chain {t : State} {p : Cpu} {sp sp' : Word} {y : System} {c : Control} {e : Env} (v : Byte)
    (h : t.cpu = { p with sp := sp } ∧ t.sys = y ∧ t.ctl = c ∧ t.env = e) (hs : sp - 1 = sp') :
    (t.push8 v).cpu = { p with sp := sp' } ∧ (t.push8 v).sys = y.write sp v ∧ (t.push8 v).ctl = c ∧
      (t.push8 v).env = e := by
  obtain ⟨h1, h2, h3, h4⟩ := h
  subst hs
  simp [h1, h2, h3, h4]

/-- All that stacking the registers can do (R361). -/
theorem State.stackRegisters_spec (s : State) (ret : Word) :
    (s.stackRegisters ret).cpu = { s.cpu with sp := s.cpu.sp - 7 } ∧ (s.stackRegisters ret).sys = s.framed ret ∧
      (s.stackRegisters ret).ctl = s.ctl ∧ (s.stackRegisters ret).env = s.env := by
  have h1 := State.push8_chain (lowByte ret) (t := s) (p := s.cpu) (sp := s.cpu.sp) ⟨rfl, rfl, rfl, rfl⟩ rfl
  have h2 := State.push8_chain (highByte ret) h1 (sp' := s.cpu.sp - 2) (by bv_omega)
  have h3 := State.push8_chain (lowByte s.cpu.x) h2 (sp' := s.cpu.sp - 3) (by bv_omega)
  have h4 := State.push8_chain (highByte s.cpu.x) h3 (sp' := s.cpu.sp - 4) (by bv_omega)
  have h5 := State.push8_chain s.cpu.a h4 (sp' := s.cpu.sp - 5) (by bv_omega)
  have h6 := State.push8_chain s.cpu.b h5 (sp' := s.cpu.sp - 6) (by bv_omega)
  exact State.push8_chain s.cpu.ccr.toByte h6 (sp' := s.cpu.sp - 7) (by bv_omega)

/-- All that taking an interrupt can do (R369 to R371, R374). -/
theorem State.takeInterrupt_spec (s : State) (ret vector withNmi : Word) (nmi : Bool) :
    let y := s.clearNmi.framed ret
    let arrives := nmi || y.nmiLatch
    let z := { y with nmiLatch := !arrives && s.sys.nmiLatch }
    let v := if arrives then withNmi else vector
    (s.takeInterrupt ret vector withNmi nmi).cpu = vectored s.cpu z v ∧
      (s.takeInterrupt ret vector withNmi nmi).sys = (z.read16 v).2 ∧
      (s.takeInterrupt ret vector withNmi nmi).ctl = afterVector s.ctl ∧
      (s.takeInterrupt ret vector withNmi nmi).env = s.env := by
  obtain ⟨h1, h2, h3, h4⟩ := s.clearNmi.stackRegisters_spec ret
  cases ha : nmi || (s.clearNmi.framed ret).nmiLatch <;>
    simp [State.takeInterrupt, h1, h2, h3, h4, ha, vectored, afterVector]

/-- One pull of a chain: where the registers but SP are `p`. -/
theorem State.pull8_chain {t : State} {p : Cpu} {sp sp' : Word} {y : System} {c : Control} {e : Env}
    (h : t.cpu = { p with sp := sp } ∧ t.sys = y ∧ t.ctl = c ∧ t.env = e) (hs : sp + 1 = sp') :
    t.pull8.1 = (y.read sp').1 ∧ t.pull8.2.cpu = { p with sp := sp' } ∧ t.pull8.2.sys = (y.read sp').2 ∧
      t.pull8.2.ctl = c ∧ t.pull8.2.env = e := by
  obtain ⟨h1, h2, h3, h4⟩ := h
  subst hs
  simp [h1, h2, h3, h4]

/-- All that returning from an interrupt can do (R330). -/
theorem State.returnFromInterrupt_spec (s : State) :
    let r1 := s.sys.read (s.cpu.sp + 1)
    let r2 := r1.2.read (s.cpu.sp + 2)
    let r3 := r2.2.read (s.cpu.sp + 3)
    let r4 := r3.2.read (s.cpu.sp + 4)
    let r5 := r4.2.read (s.cpu.sp + 5)
    let r6 := r5.2.read (s.cpu.sp + 6)
    let r7 := r6.2.read (s.cpu.sp + 7)
    s.returnFromInterrupt.cpu =
        { a := r3.1, b := r2.1, x := joinBytes r4.1 r5.1, sp := s.cpu.sp + 7, pc := joinBytes r6.1 r7.1,
          ccr := Ccr.ofByte r1.1 } ∧
      s.returnFromInterrupt.sys = r7.2 ∧ s.returnFromInterrupt.ctl = s.ctl ∧
      s.returnFromInterrupt.env = s.env := by
  have h1 := State.pull8_chain (t := s) (p := s.cpu) (sp := s.cpu.sp) (sp' := s.cpu.sp + 1) ⟨rfl, rfl, rfl, rfl⟩ rfl
  have h2 := State.pull8_chain h1.2 (sp' := s.cpu.sp + 2) (by bv_omega)
  have h3 := State.pull8_chain h2.2 (sp' := s.cpu.sp + 3) (by bv_omega)
  have h4 := State.pull8_chain h3.2 (sp' := s.cpu.sp + 4) (by bv_omega)
  have h5 := State.pull8_chain h4.2 (sp' := s.cpu.sp + 5) (by bv_omega)
  have h6 := State.pull8_chain h5.2 (sp' := s.cpu.sp + 6) (by bv_omega)
  have h7 := State.pull8_chain h6.2 (sp' := s.cpu.sp + 7) (by bv_omega)
  simp only [State.returnFromInterrupt, State.pull16, State.setCpu_cpu, State.setCpu_sys, State.setCpu_ctl,
    State.setCpu_env]
  refine ⟨?_, h7.2.2⟩
  rw [h7.2.1, h7.1, h6.1, h5.1, h4.1, h3.1, h2.1, h1.1]

/-- The frame leaves every byte outside it as it was. -/
theorem State.framed_sameBytes (s : State) (ret : Word) :
    SameBytesExcept (frameAddresses s.cpu.sp) s.sys (s.framed ret) := by
  intro hs a ha
  refine System.writes_cell_other _ _ _ hs ?_
  intro p hp
  exact ha p.1 (List.of_mem_zip hp).1

end Sys2Proof.Machine
end

