-- ==== Sys2Proof/Laws/Boundary.lean ====
section
/-! SUPPORT. What a step does at a boundary where nothing disturbs it, and what the end of a step leaves alone. -/

namespace Sys2Proof.Machine

/-- With no NMI edge and no RES inside the step, its end lets the IRQ pulse of the step arrive and changes nothing else. -/
theorem State.settle_of_quiet (s : State) (hn : s.env.nmiDuring = false) (hc : s.sys.resCut = none) :
    s.settle = s.pulseDuring := by
  obtain ⟨cpu, ctl, sys, env⟩ := s
  obtain ⟨ram, rom, board, pias, acias, latch, low, draws, cut, steals⟩ := sys
  obtain ⟨schedule, irq, halt, res, tsc, during, pulse⟩ := env
  simp only at hn hc
  subst hn hc
  simp [State.settle, State.pulseDuring]

/-- Without an IRQ pulse inside the step nothing arrives. -/
theorem State.pulseDuring_of_none (s : State) (h : s.env.irqDuring = false) : s.pulseDuring = s := by
  obtain ⟨cpu, ctl, sys, env⟩ := s
  obtain ⟨schedule, irq, halt, res, tsc, during, pulse⟩ := env
  simp only at h
  subst h
  simp [State.pulseDuring]

@[simp] theorem State.noteDuring_cpu (s : State) (b : Bool) : (s.noteDuring b).cpu = s.cpu := rfl
@[simp] theorem State.noteDuring_ctl (s : State) (b : Bool) : (s.noteDuring b).ctl = s.ctl := rfl
@[simp] theorem State.noteDuring_sys (s : State) (b : Bool) : (s.noteDuring b).sys = { s.sys with nmiLatch := b } := rfl
@[simp] theorem State.noteDuring_env (s : State) (b : Bool) :
    (s.noteDuring b).env = { s.env with nmiDuring := s.env.nmiDuring || s.sys.nmiLatch } := rfl

theorem fetchCount_cases (opcode : Byte) : fetchCount opcode = 1 ∨ fetchCount opcode = 2 ∨ fetchCount opcode = 3 := by
  unfold fetchCount
  split <;> simp

/-- All that the fetch of a program in memory can do, when no cycle is stolen from it: it answers the bytes, and changes
nothing but that the IRQ pulse of the step arrives. -/
theorem State.fetch_of_cells (s : State) (b0 b1 b2 : Byte) (hs : s.sys.steals = []) (h0 : s.sys.cell s.cpu.pc = some b0)
    (h1 : s.sys.cell (s.cpu.pc + 1) = some b1) (h2 : s.sys.cell (s.cpu.pc + 2) = some b2) :
    s.fetch = ([b0, b1, b2].take (fetchCount b0), s.pulseDuring) := by
  have r0 := s.clearNmi.read_of_cell s.cpu.pc b0 hs h0
  have r1 := s.clearNmi.read_of_cell (s.cpu.pc + 1) b1 hs h1
  have r2 := s.clearNmi.read_of_cell (s.cpu.pc + 2) b2 hs h2
  have hn : s.clearNmi.noteDuring s.sys.nmiLatch = s := by simp [State.noteDuring, State.clearNmi, State.restoreNmi]
  rcases fetchCount_cases b0 with h | h | h <;>
    simp only [State.fetch, State.fetchBytes, State.clearNmi_cpu, r0, r1, r2, h, hn] <;> rfl

/-- The bytes the fetch reads are those that decoding needs. -/
theorem decode_take_fetchCount (b0 b1 b2 : Byte) (i : Instr) (rest : List Byte) (h : decode [b0, b1, b2] = .ok (i, rest)) :
    ∃ r, decode ([b0, b1, b2].take (fetchCount b0)) = .ok (i, r) := by
  cases hc : opcodeCell b0 <;> simp_all [decode, fetchCount]

/-- With an empty schedule the environment changes nothing. -/
theorem State.pollEnvironment_of_empty (s : State) (h : s.env.schedule = []) : s.pollEnvironment = .ok s := by
  unfold State.pollEnvironment
  rw [h]

/-- What a decision makes of a step. -/
def Decision.outcome (d : Decision) : Host.Outcome State Fault Refusal :=
  match d with
  | .over u => .next u.settle
  | .execute u => u.runInstruction

/-- With an empty schedule a step is the decision of the boundary. -/
theorem step_of_empty (s : State) (h : s.env.schedule = []) : step s = s.boundary.outcome := by
  cases hb : s.boundary <;> simp [step, Decision.outcome, s.pollEnvironment_of_empty h, hb]

/-- The boundary of a running machine that nothing disturbs. -/
theorem State.boundary_of_running (s : State) (h : Undisturbed s) (hr : s.ctl.runState = .running) :
    s.boundary = s.runBoundary := by
  obtain ⟨_, hres, htsc, hhalt, _, _, _⟩ := h
  simp [State.boundary, hres, htsc, hhalt, hr]

/-- The boundary of a waiting machine that nothing disturbs. -/
theorem State.boundary_of_waiting (s : State) (h : Undisturbed s) (hr : s.ctl.runState = .waiting) :
    s.boundary = .over s.waitBoundary := by
  obtain ⟨_, hres, htsc, _, _, _, _⟩ := h
  simp [State.boundary, hres, htsc, hr]

/-- Everything a run boundary can decide (R362, R373). -/
theorem State.runBoundary_cases (s : State) :
    (s.takesNmi = true ∧ s.runBoundary = .over s.clearHoldoffs.pulseE.nmiSequence) ∨
      (s.takesNmi = false ∧ s.takesIrq = true ∧ s.runBoundary = .over s.clearHoldoffs.pulseE.irqSequence) ∨
      (s.takesNmi = false ∧ s.takesIrq = false ∧ s.runBoundary = .execute s.clearHoldoffs.pulseE) := by
  unfold State.runBoundary
  cases s.takesNmi <;> cases s.takesIrq <;> simp

/-- Everything a step can do that answers a next state. -/
theorem step_next_cases {s t : State} (h : step s = .next t) :
    ∃ p, s.pollEnvironment = .ok p ∧
      ((∃ u, p.boundary = .over u ∧ t = u.settle) ∨
        ∃ u i rest v, p.boundary = .execute u ∧ decode u.fetch.1 = .ok (i, rest) ∧ exec i u.fetch.2 = .next v ∧
          t = v.settle) := by
  unfold step at h
  split at h
  · cases h
  · rename_i p hp
    refine ⟨p, hp, ?_⟩
    split at h
    · rename_i u hu
      exact .inl ⟨u, hu, by cases h; rfl⟩
    · rename_i u hu
      unfold State.runInstruction at h
      split at h
      · rename_i i rest hd
        unfold settleOutcome at h
        split at h
        · rename_i v hv
          exact .inr ⟨u, i, rest, v, hu, hd, hv, by cases h; rfl⟩
        · cases h
        · cases h
      · cases h

end Sys2Proof.Machine
end

