-- ==== Sys2Proof/Laws/PerInstr.lean ====
section
/-! SUPPORT. One lemma per instruction: its encoding is its opcode followed by as many operand bytes as the opcode map
gives that opcode. -/

namespace Sys2Proof.Laws

/-- The encoding of `i` starts with an opcode whose cell of the opcode map (R103) has the length of the encoding. -/
def Layout.Statement (i : Instr) : Prop :=
  ∃ opcode operands, encode i = opcode :: operands ∧ (opcodeCell opcode).length = i.length

theorem Layout.nop : Layout.Statement .nop := ⟨_, _, rfl, rfl⟩
theorem Layout.tap : Layout.Statement .tap := ⟨_, _, rfl, rfl⟩
theorem Layout.tpa : Layout.Statement .tpa := ⟨_, _, rfl, rfl⟩
theorem Layout.inx : Layout.Statement .inx := ⟨_, _, rfl, rfl⟩
theorem Layout.dex : Layout.Statement .dex := ⟨_, _, rfl, rfl⟩
theorem Layout.clv : Layout.Statement .clv := ⟨_, _, rfl, rfl⟩
theorem Layout.sev : Layout.Statement .sev := ⟨_, _, rfl, rfl⟩
theorem Layout.clc : Layout.Statement .clc := ⟨_, _, rfl, rfl⟩
theorem Layout.sec : Layout.Statement .sec := ⟨_, _, rfl, rfl⟩
theorem Layout.cli : Layout.Statement .cli := ⟨_, _, rfl, rfl⟩
theorem Layout.sei : Layout.Statement .sei := ⟨_, _, rfl, rfl⟩
theorem Layout.sba : Layout.Statement .sba := ⟨_, _, rfl, rfl⟩
theorem Layout.cba : Layout.Statement .cba := ⟨_, _, rfl, rfl⟩
theorem Layout.tab : Layout.Statement .tab := ⟨_, _, rfl, rfl⟩
theorem Layout.tba : Layout.Statement .tba := ⟨_, _, rfl, rfl⟩
theorem Layout.daa : Layout.Statement .daa := ⟨_, _, rfl, rfl⟩
theorem Layout.aba : Layout.Statement .aba := ⟨_, _, rfl, rfl⟩
theorem Layout.bra (rel : Byte) : Layout.Statement (.bra rel) := ⟨_, _, rfl, rfl⟩
theorem Layout.bhi (rel : Byte) : Layout.Statement (.bhi rel) := ⟨_, _, rfl, rfl⟩
theorem Layout.bls (rel : Byte) : Layout.Statement (.bls rel) := ⟨_, _, rfl, rfl⟩
theorem Layout.bcc (rel : Byte) : Layout.Statement (.bcc rel) := ⟨_, _, rfl, rfl⟩
theorem Layout.bcs (rel : Byte) : Layout.Statement (.bcs rel) := ⟨_, _, rfl, rfl⟩
theorem Layout.bne (rel : Byte) : Layout.Statement (.bne rel) := ⟨_, _, rfl, rfl⟩
theorem Layout.beq (rel : Byte) : Layout.Statement (.beq rel) := ⟨_, _, rfl, rfl⟩
theorem Layout.bvc (rel : Byte) : Layout.Statement (.bvc rel) := ⟨_, _, rfl, rfl⟩
theorem Layout.bvs (rel : Byte) : Layout.Statement (.bvs rel) := ⟨_, _, rfl, rfl⟩
theorem Layout.bpl (rel : Byte) : Layout.Statement (.bpl rel) := ⟨_, _, rfl, rfl⟩
theorem Layout.bmi (rel : Byte) : Layout.Statement (.bmi rel) := ⟨_, _, rfl, rfl⟩
theorem Layout.bge (rel : Byte) : Layout.Statement (.bge rel) := ⟨_, _, rfl, rfl⟩
theorem Layout.blt (rel : Byte) : Layout.Statement (.blt rel) := ⟨_, _, rfl, rfl⟩
theorem Layout.bgt (rel : Byte) : Layout.Statement (.bgt rel) := ⟨_, _, rfl, rfl⟩
theorem Layout.ble (rel : Byte) : Layout.Statement (.ble rel) := ⟨_, _, rfl, rfl⟩
theorem Layout.tsx : Layout.Statement .tsx := ⟨_, _, rfl, rfl⟩
theorem Layout.ins : Layout.Statement .ins := ⟨_, _, rfl, rfl⟩
theorem Layout.pula : Layout.Statement .pula := ⟨_, _, rfl, rfl⟩
theorem Layout.pulb : Layout.Statement .pulb := ⟨_, _, rfl, rfl⟩
theorem Layout.des : Layout.Statement .des := ⟨_, _, rfl, rfl⟩
theorem Layout.txs : Layout.Statement .txs := ⟨_, _, rfl, rfl⟩
theorem Layout.psha : Layout.Statement .psha := ⟨_, _, rfl, rfl⟩
theorem Layout.pshb : Layout.Statement .pshb := ⟨_, _, rfl, rfl⟩
theorem Layout.rts : Layout.Statement .rts := ⟨_, _, rfl, rfl⟩
theorem Layout.rti : Layout.Statement .rti := ⟨_, _, rfl, rfl⟩
theorem Layout.wai : Layout.Statement .wai := ⟨_, _, rfl, rfl⟩
theorem Layout.swi : Layout.Statement .swi := ⟨_, _, rfl, rfl⟩
theorem Layout.nega : Layout.Statement .nega := ⟨_, _, rfl, rfl⟩
theorem Layout.coma : Layout.Statement .coma := ⟨_, _, rfl, rfl⟩
theorem Layout.lsra : Layout.Statement .lsra := ⟨_, _, rfl, rfl⟩
theorem Layout.rora : Layout.Statement .rora := ⟨_, _, rfl, rfl⟩
theorem Layout.asra : Layout.Statement .asra := ⟨_, _, rfl, rfl⟩
theorem Layout.asla : Layout.Statement .asla := ⟨_, _, rfl, rfl⟩
theorem Layout.rola : Layout.Statement .rola := ⟨_, _, rfl, rfl⟩
theorem Layout.deca : Layout.Statement .deca := ⟨_, _, rfl, rfl⟩
theorem Layout.inca : Layout.Statement .inca := ⟨_, _, rfl, rfl⟩
theorem Layout.tsta : Layout.Statement .tsta := ⟨_, _, rfl, rfl⟩
theorem Layout.clra : Layout.Statement .clra := ⟨_, _, rfl, rfl⟩
theorem Layout.negb : Layout.Statement .negb := ⟨_, _, rfl, rfl⟩
theorem Layout.comb : Layout.Statement .comb := ⟨_, _, rfl, rfl⟩
theorem Layout.lsrb : Layout.Statement .lsrb := ⟨_, _, rfl, rfl⟩
theorem Layout.rorb : Layout.Statement .rorb := ⟨_, _, rfl, rfl⟩
theorem Layout.asrb : Layout.Statement .asrb := ⟨_, _, rfl, rfl⟩
theorem Layout.aslb : Layout.Statement .aslb := ⟨_, _, rfl, rfl⟩
theorem Layout.rolb : Layout.Statement .rolb := ⟨_, _, rfl, rfl⟩
theorem Layout.decb : Layout.Statement .decb := ⟨_, _, rfl, rfl⟩
theorem Layout.incb : Layout.Statement .incb := ⟨_, _, rfl, rfl⟩
theorem Layout.tstb : Layout.Statement .tstb := ⟨_, _, rfl, rfl⟩
theorem Layout.clrb : Layout.Statement .clrb := ⟨_, _, rfl, rfl⟩
theorem Layout.negIdx (off : Byte) : Layout.Statement (.negIdx off) := ⟨_, _, rfl, rfl⟩
theorem Layout.comIdx (off : Byte) : Layout.Statement (.comIdx off) := ⟨_, _, rfl, rfl⟩
theorem Layout.lsrIdx (off : Byte) : Layout.Statement (.lsrIdx off) := ⟨_, _, rfl, rfl⟩
theorem Layout.rorIdx (off : Byte) : Layout.Statement (.rorIdx off) := ⟨_, _, rfl, rfl⟩
theorem Layout.asrIdx (off : Byte) : Layout.Statement (.asrIdx off) := ⟨_, _, rfl, rfl⟩
theorem Layout.aslIdx (off : Byte) : Layout.Statement (.aslIdx off) := ⟨_, _, rfl, rfl⟩
theorem Layout.rolIdx (off : Byte) : Layout.Statement (.rolIdx off) := ⟨_, _, rfl, rfl⟩
theorem Layout.decIdx (off : Byte) : Layout.Statement (.decIdx off) := ⟨_, _, rfl, rfl⟩
theorem Layout.incIdx (off : Byte) : Layout.Statement (.incIdx off) := ⟨_, _, rfl, rfl⟩
theorem Layout.tstIdx (off : Byte) : Layout.Statement (.tstIdx off) := ⟨_, _, rfl, rfl⟩
theorem Layout.jmpIdx (off : Byte) : Layout.Statement (.jmpIdx off) := ⟨_, _, rfl, rfl⟩
theorem Layout.clrIdx (off : Byte) : Layout.Statement (.clrIdx off) := ⟨_, _, rfl, rfl⟩
theorem Layout.negExt (w : Word) : Layout.Statement (.negExt w) := ⟨_, _, rfl, rfl⟩
theorem Layout.comExt (w : Word) : Layout.Statement (.comExt w) := ⟨_, _, rfl, rfl⟩
theorem Layout.lsrExt (w : Word) : Layout.Statement (.lsrExt w) := ⟨_, _, rfl, rfl⟩
theorem Layout.rorExt (w : Word) : Layout.Statement (.rorExt w) := ⟨_, _, rfl, rfl⟩
theorem Layout.asrExt (w : Word) : Layout.Statement (.asrExt w) := ⟨_, _, rfl, rfl⟩
theorem Layout.aslExt (w : Word) : Layout.Statement (.aslExt w) := ⟨_, _, rfl, rfl⟩
theorem Layout.rolExt (w : Word) : Layout.Statement (.rolExt w) := ⟨_, _, rfl, rfl⟩
theorem Layout.decExt (w : Word) : Layout.Statement (.decExt w) := ⟨_, _, rfl, rfl⟩
theorem Layout.incExt (w : Word) : Layout.Statement (.incExt w) := ⟨_, _, rfl, rfl⟩
theorem Layout.tstExt (w : Word) : Layout.Statement (.tstExt w) := ⟨_, _, rfl, rfl⟩
theorem Layout.jmpExt (w : Word) : Layout.Statement (.jmpExt w) := ⟨_, _, rfl, rfl⟩
theorem Layout.clrExt (w : Word) : Layout.Statement (.clrExt w) := ⟨_, _, rfl, rfl⟩
theorem Layout.subaImm (m : Byte) : Layout.Statement (.subaImm m) := ⟨_, _, rfl, rfl⟩
theorem Layout.cmpaImm (m : Byte) : Layout.Statement (.cmpaImm m) := ⟨_, _, rfl, rfl⟩
theorem Layout.sbcaImm (m : Byte) : Layout.Statement (.sbcaImm m) := ⟨_, _, rfl, rfl⟩
theorem Layout.andaImm (m : Byte) : Layout.Statement (.andaImm m) := ⟨_, _, rfl, rfl⟩
theorem Layout.bitaImm (m : Byte) : Layout.Statement (.bitaImm m) := ⟨_, _, rfl, rfl⟩
theorem Layout.ldaaImm (m : Byte) : Layout.Statement (.ldaaImm m) := ⟨_, _, rfl, rfl⟩
theorem Layout.eoraImm (m : Byte) : Layout.Statement (.eoraImm m) := ⟨_, _, rfl, rfl⟩
theorem Layout.adcaImm (m : Byte) : Layout.Statement (.adcaImm m) := ⟨_, _, rfl, rfl⟩
theorem Layout.oraaImm (m : Byte) : Layout.Statement (.oraaImm m) := ⟨_, _, rfl, rfl⟩
theorem Layout.addaImm (m : Byte) : Layout.Statement (.addaImm m) := ⟨_, _, rfl, rfl⟩
theorem Layout.cpxImm (w : Word) : Layout.Statement (.cpxImm w) := ⟨_, _, rfl, rfl⟩
theorem Layout.bsr (rel : Byte) : Layout.Statement (.bsr rel) := ⟨_, _, rfl, rfl⟩
theorem Layout.ldsImm (w : Word) : Layout.Statement (.ldsImm w) := ⟨_, _, rfl, rfl⟩
theorem Layout.subaDir (d : Byte) : Layout.Statement (.subaDir d) := ⟨_, _, rfl, rfl⟩
theorem Layout.cmpaDir (d : Byte) : Layout.Statement (.cmpaDir d) := ⟨_, _, rfl, rfl⟩
theorem Layout.sbcaDir (d : Byte) : Layout.Statement (.sbcaDir d) := ⟨_, _, rfl, rfl⟩
theorem Layout.andaDir (d : Byte) : Layout.Statement (.andaDir d) := ⟨_, _, rfl, rfl⟩
theorem Layout.bitaDir (d : Byte) : Layout.Statement (.bitaDir d) := ⟨_, _, rfl, rfl⟩
theorem Layout.ldaaDir (d : Byte) : Layout.Statement (.ldaaDir d) := ⟨_, _, rfl, rfl⟩
theorem Layout.staaDir (d : Byte) : Layout.Statement (.staaDir d) := ⟨_, _, rfl, rfl⟩
theorem Layout.eoraDir (d : Byte) : Layout.Statement (.eoraDir d) := ⟨_, _, rfl, rfl⟩
theorem Layout.adcaDir (d : Byte) : Layout.Statement (.adcaDir d) := ⟨_, _, rfl, rfl⟩
theorem Layout.oraaDir (d : Byte) : Layout.Statement (.oraaDir d) := ⟨_, _, rfl, rfl⟩
theorem Layout.addaDir (d : Byte) : Layout.Statement (.addaDir d) := ⟨_, _, rfl, rfl⟩
theorem Layout.cpxDir (d : Byte) : Layout.Statement (.cpxDir d) := ⟨_, _, rfl, rfl⟩
theorem Layout.ldsDir (d : Byte) : Layout.Statement (.ldsDir d) := ⟨_, _, rfl, rfl⟩
theorem Layout.stsDir (d : Byte) : Layout.Statement (.stsDir d) := ⟨_, _, rfl, rfl⟩
theorem Layout.subaIdx (off : Byte) : Layout.Statement (.subaIdx off) := ⟨_, _, rfl, rfl⟩
theorem Layout.cmpaIdx (off : Byte) : Layout.Statement (.cmpaIdx off) := ⟨_, _, rfl, rfl⟩
theorem Layout.sbcaIdx (off : Byte) : Layout.Statement (.sbcaIdx off) := ⟨_, _, rfl, rfl⟩
theorem Layout.andaIdx (off : Byte) : Layout.Statement (.andaIdx off) := ⟨_, _, rfl, rfl⟩
theorem Layout.bitaIdx (off : Byte) : Layout.Statement (.bitaIdx off) := ⟨_, _, rfl, rfl⟩
theorem Layout.ldaaIdx (off : Byte) : Layout.Statement (.ldaaIdx off) := ⟨_, _, rfl, rfl⟩
theorem Layout.staaIdx (off : Byte) : Layout.Statement (.staaIdx off) := ⟨_, _, rfl, rfl⟩
theorem Layout.eoraIdx (off : Byte) : Layout.Statement (.eoraIdx off) := ⟨_, _, rfl, rfl⟩
theorem Layout.adcaIdx (off : Byte) : Layout.Statement (.adcaIdx off) := ⟨_, _, rfl, rfl⟩
theorem Layout.oraaIdx (off : Byte) : Layout.Statement (.oraaIdx off) := ⟨_, _, rfl, rfl⟩
theorem Layout.addaIdx (off : Byte) : Layout.Statement (.addaIdx off) := ⟨_, _, rfl, rfl⟩
theorem Layout.cpxIdx (off : Byte) : Layout.Statement (.cpxIdx off) := ⟨_, _, rfl, rfl⟩
theorem Layout.jsrIdx (off : Byte) : Layout.Statement (.jsrIdx off) := ⟨_, _, rfl, rfl⟩
theorem Layout.ldsIdx (off : Byte) : Layout.Statement (.ldsIdx off) := ⟨_, _, rfl, rfl⟩
theorem Layout.stsIdx (off : Byte) : Layout.Statement (.stsIdx off) := ⟨_, _, rfl, rfl⟩
theorem Layout.subaExt (w : Word) : Layout.Statement (.subaExt w) := ⟨_, _, rfl, rfl⟩
theorem Layout.cmpaExt (w : Word) : Layout.Statement (.cmpaExt w) := ⟨_, _, rfl, rfl⟩
theorem Layout.sbcaExt (w : Word) : Layout.Statement (.sbcaExt w) := ⟨_, _, rfl, rfl⟩
theorem Layout.andaExt (w : Word) : Layout.Statement (.andaExt w) := ⟨_, _, rfl, rfl⟩
theorem Layout.bitaExt (w : Word) : Layout.Statement (.bitaExt w) := ⟨_, _, rfl, rfl⟩
theorem Layout.ldaaExt (w : Word) : Layout.Statement (.ldaaExt w) := ⟨_, _, rfl, rfl⟩
theorem Layout.staaExt (w : Word) : Layout.Statement (.staaExt w) := ⟨_, _, rfl, rfl⟩
theorem Layout.eoraExt (w : Word) : Layout.Statement (.eoraExt w) := ⟨_, _, rfl, rfl⟩
theorem Layout.adcaExt (w : Word) : Layout.Statement (.adcaExt w) := ⟨_, _, rfl, rfl⟩
theorem Layout.oraaExt (w : Word) : Layout.Statement (.oraaExt w) := ⟨_, _, rfl, rfl⟩
theorem Layout.addaExt (w : Word) : Layout.Statement (.addaExt w) := ⟨_, _, rfl, rfl⟩
theorem Layout.cpxExt (w : Word) : Layout.Statement (.cpxExt w) := ⟨_, _, rfl, rfl⟩
theorem Layout.jsrExt (w : Word) : Layout.Statement (.jsrExt w) := ⟨_, _, rfl, rfl⟩
theorem Layout.ldsExt (w : Word) : Layout.Statement (.ldsExt w) := ⟨_, _, rfl, rfl⟩
theorem Layout.stsExt (w : Word) : Layout.Statement (.stsExt w) := ⟨_, _, rfl, rfl⟩
theorem Layout.subbImm (m : Byte) : Layout.Statement (.subbImm m) := ⟨_, _, rfl, rfl⟩
theorem Layout.cmpbImm (m : Byte) : Layout.Statement (.cmpbImm m) := ⟨_, _, rfl, rfl⟩
theorem Layout.sbcbImm (m : Byte) : Layout.Statement (.sbcbImm m) := ⟨_, _, rfl, rfl⟩
theorem Layout.andbImm (m : Byte) : Layout.Statement (.andbImm m) := ⟨_, _, rfl, rfl⟩
theorem Layout.bitbImm (m : Byte) : Layout.Statement (.bitbImm m) := ⟨_, _, rfl, rfl⟩
theorem Layout.ldabImm (m : Byte) : Layout.Statement (.ldabImm m) := ⟨_, _, rfl, rfl⟩
theorem Layout.eorbImm (m : Byte) : Layout.Statement (.eorbImm m) := ⟨_, _, rfl, rfl⟩
theorem Layout.adcbImm (m : Byte) : Layout.Statement (.adcbImm m) := ⟨_, _, rfl, rfl⟩
theorem Layout.orabImm (m : Byte) : Layout.Statement (.orabImm m) := ⟨_, _, rfl, rfl⟩
theorem Layout.addbImm (m : Byte) : Layout.Statement (.addbImm m) := ⟨_, _, rfl, rfl⟩
theorem Layout.ldxImm (w : Word) : Layout.Statement (.ldxImm w) := ⟨_, _, rfl, rfl⟩
theorem Layout.subbDir (d : Byte) : Layout.Statement (.subbDir d) := ⟨_, _, rfl, rfl⟩
theorem Layout.cmpbDir (d : Byte) : Layout.Statement (.cmpbDir d) := ⟨_, _, rfl, rfl⟩
theorem Layout.sbcbDir (d : Byte) : Layout.Statement (.sbcbDir d) := ⟨_, _, rfl, rfl⟩
theorem Layout.andbDir (d : Byte) : Layout.Statement (.andbDir d) := ⟨_, _, rfl, rfl⟩
theorem Layout.bitbDir (d : Byte) : Layout.Statement (.bitbDir d) := ⟨_, _, rfl, rfl⟩
theorem Layout.ldabDir (d : Byte) : Layout.Statement (.ldabDir d) := ⟨_, _, rfl, rfl⟩
theorem Layout.stabDir (d : Byte) : Layout.Statement (.stabDir d) := ⟨_, _, rfl, rfl⟩
theorem Layout.eorbDir (d : Byte) : Layout.Statement (.eorbDir d) := ⟨_, _, rfl, rfl⟩
theorem Layout.adcbDir (d : Byte) : Layout.Statement (.adcbDir d) := ⟨_, _, rfl, rfl⟩
theorem Layout.orabDir (d : Byte) : Layout.Statement (.orabDir d) := ⟨_, _, rfl, rfl⟩
theorem Layout.addbDir (d : Byte) : Layout.Statement (.addbDir d) := ⟨_, _, rfl, rfl⟩
theorem Layout.ldxDir (d : Byte) : Layout.Statement (.ldxDir d) := ⟨_, _, rfl, rfl⟩
theorem Layout.stxDir (d : Byte) : Layout.Statement (.stxDir d) := ⟨_, _, rfl, rfl⟩
theorem Layout.subbIdx (off : Byte) : Layout.Statement (.subbIdx off) := ⟨_, _, rfl, rfl⟩
theorem Layout.cmpbIdx (off : Byte) : Layout.Statement (.cmpbIdx off) := ⟨_, _, rfl, rfl⟩
theorem Layout.sbcbIdx (off : Byte) : Layout.Statement (.sbcbIdx off) := ⟨_, _, rfl, rfl⟩
theorem Layout.andbIdx (off : Byte) : Layout.Statement (.andbIdx off) := ⟨_, _, rfl, rfl⟩
theorem Layout.bitbIdx (off : Byte) : Layout.Statement (.bitbIdx off) := ⟨_, _, rfl, rfl⟩
theorem Layout.ldabIdx (off : Byte) : Layout.Statement (.ldabIdx off) := ⟨_, _, rfl, rfl⟩
theorem Layout.stabIdx (off : Byte) : Layout.Statement (.stabIdx off) := ⟨_, _, rfl, rfl⟩
theorem Layout.eorbIdx (off : Byte) : Layout.Statement (.eorbIdx off) := ⟨_, _, rfl, rfl⟩
theorem Layout.adcbIdx (off : Byte) : Layout.Statement (.adcbIdx off) := ⟨_, _, rfl, rfl⟩
theorem Layout.orabIdx (off : Byte) : Layout.Statement (.orabIdx off) := ⟨_, _, rfl, rfl⟩
theorem Layout.addbIdx (off : Byte) : Layout.Statement (.addbIdx off) := ⟨_, _, rfl, rfl⟩
theorem Layout.ldxIdx (off : Byte) : Layout.Statement (.ldxIdx off) := ⟨_, _, rfl, rfl⟩
theorem Layout.stxIdx (off : Byte) : Layout.Statement (.stxIdx off) := ⟨_, _, rfl, rfl⟩
theorem Layout.subbExt (w : Word) : Layout.Statement (.subbExt w) := ⟨_, _, rfl, rfl⟩
theorem Layout.cmpbExt (w : Word) : Layout.Statement (.cmpbExt w) := ⟨_, _, rfl, rfl⟩
theorem Layout.sbcbExt (w : Word) : Layout.Statement (.sbcbExt w) := ⟨_, _, rfl, rfl⟩
theorem Layout.andbExt (w : Word) : Layout.Statement (.andbExt w) := ⟨_, _, rfl, rfl⟩
theorem Layout.bitbExt (w : Word) : Layout.Statement (.bitbExt w) := ⟨_, _, rfl, rfl⟩
theorem Layout.ldabExt (w : Word) : Layout.Statement (.ldabExt w) := ⟨_, _, rfl, rfl⟩
theorem Layout.stabExt (w : Word) : Layout.Statement (.stabExt w) := ⟨_, _, rfl, rfl⟩
theorem Layout.eorbExt (w : Word) : Layout.Statement (.eorbExt w) := ⟨_, _, rfl, rfl⟩
theorem Layout.adcbExt (w : Word) : Layout.Statement (.adcbExt w) := ⟨_, _, rfl, rfl⟩
theorem Layout.orabExt (w : Word) : Layout.Statement (.orabExt w) := ⟨_, _, rfl, rfl⟩
theorem Layout.addbExt (w : Word) : Layout.Statement (.addbExt w) := ⟨_, _, rfl, rfl⟩
theorem Layout.ldxExt (w : Word) : Layout.Statement (.ldxExt w) := ⟨_, _, rfl, rfl⟩
theorem Layout.stxExt (w : Word) : Layout.Statement (.stxExt w) := ⟨_, _, rfl, rfl⟩

end Sys2Proof.Laws
end

