-- ==== Sys2Proof/Machine/Listing.lean ====
section
/-! DEFINITION. The listing of an assembled program: its lines, what NAM, OPT, PAGE and SPC do to it, and the symbols (R117,
R119; what the spec leaves open of it is log 42). -/

namespace Sys2Proof

/-! ### Lines (R119) -/

/-- `n` hexadecimal digits of a number. -/
def hexDigits (n v : Nat) : Chars :=
  match n with
  | 0 => []
  | k + 1 =>
    let d := v / 16 ^ k % 16
    Char.ofNat (if d < 10 then 48 + d else 55 + d) :: hexDigits k v

/-- The object field of an instruction: a 16-bit operand is four digits without a space. -/
def objectField (bytes : List Byte) : Chars :=
  match bytes with
  | [] => []
  | [op] => hexDigits 2 op.toNat
  | op :: operand => hexDigits 2 op.toNat ++ ' ' :: operand.flatMap fun b => hexDigits 2 b.toNat

/-- The object field of a data directive: its bytes, a space between two (DESIGN CHOICE, log 42). -/
def dataField (bytes : List Byte) : Chars :=
  match bytes with
  | [] => []
  | [b] => hexDigits 2 b.toNat
  | b :: rest => hexDigits 2 b.toNat ++ ' ' :: dataField rest

/-- Fields with a space between two; an empty field is left out. -/
def joinFields (l : List Chars) : Chars :=
  match l with
  | [] => []
  | f :: rest =>
    if f.isEmpty then joinFields rest
    else if (joinFields rest).isEmpty then f
    else f ++ ' ' :: joinFields rest

/-- A line of the listing: line number, address, object field, then the source line.  The number is printed in decimal
without leading zeros (DESIGN CHOICE, log 42). -/
def listingLine (number : Nat) (address : Option Word) (object source : Chars) : Chars :=
  let a := match address with
    | some w => hexDigits 4 w.toNat
    | none => []
  joinFields [Nat.toDigits 10 number, a, object, source]

/-- The address field: that of a statement that places or reserves bytes; a line of another one has none (DESIGN CHOICE,
log 42). -/
def AsmLine.addressField (l : AsmLine) : Option Word :=
  match l.statement.body with
  | .instruction _ _ _ => some l.address
  | .fcb _ => some l.address
  | .fdb _ => some l.address
  | .fcc _ => some l.address
  | .rmb _ => some l.address
  | .org _ => none
  | .equ _ => none
  | .finish => none
  | .listing _ => none

/-- The object field of a line; only instructions and data directives have bytes. -/
def AsmLine.objectField (l : AsmLine) : Chars :=
  match l.statement.body with
  | .instruction _ _ _ => Sys2Proof.objectField l.bytes
  | .fcb _ => dataField l.bytes
  | .fdb _ => dataField l.bytes
  | .fcc _ => dataField l.bytes
  | .rmb _ => []
  | .org _ => []
  | .equ _ => []
  | .finish => []
  | .listing _ => []

def AsmLine.text (l : AsmLine) : Chars :=
  listingLine l.statement.number l.addressField l.objectField l.statement.source

/-! ### Options (R117) -/

/-- Long, short or not at all. -/
inductive ListDetail where
  | full | short | off
deriving DecidableEq, Repr

/-- The options in force.  R117 gives their names and defaults: `list`, `symbol` and `page` act as their names say, the
others are kept and act on nothing (DESIGN CHOICE, log 42). -/
structure AsmOptions where
  list : ListDetail
  symbol : Bool
  generate : Bool
  error : ListDetail
  page : Bool
  tab : Bool
  /-- DB8, DB10 or DB16 -/
  base : Nat
  mem : Bool
deriving DecidableEq, Repr

/-- The defaults: LIST, SYMBOL, GENERATE, ERROR, PAGE, TAB, DB16, NOMEM (R117). -/
def AsmOptions.initial : AsmOptions :=
  { list := .full, symbol := true, generate := true, error := .full, page := true, tab := true, base := 16, mem := false }

def AsmOptions.set (o : AsmOptions) (x : AsmOption) : AsmOptions :=
  match x with
  | .list => { o with list := .full }
  | .slist => { o with list := .short }
  | .nolist => { o with list := .off }
  | .symbol => { o with symbol := true }
  | .nosymbol => { o with symbol := false }
  | .generate => { o with generate := true }
  | .nogenerate => { o with generate := false }
  | .error => { o with error := .full }
  | .serror => { o with error := .short }
  | .noerror => { o with error := .off }
  | .page => { o with page := true }
  | .nopage => { o with page := false }
  | .tab => { o with tab := true }
  | .notab => { o with tab := false }
  | .db8 => { o with base := 8 }
  | .db10 => { o with base := 10 }
  | .db16 => { o with base := 16 }
  | .mem => { o with mem := true }
  | .nomem => { o with mem := false }

/-- An OPT statement. -/
def AsmOptions.setAll (o : AsmOptions) (l : List AsmOption) : AsmOptions := l.foldl AsmOptions.set o

/-! ### The listing -/

/-- What stands in a listing from top to bottom. -/
inductive ListingEntry where
  | line (text : Chars)
  | blank
  /-- a form feed, and the heading of the page after it -/
  | formFeed (heading : Option Chars)
deriving DecidableEq, Repr

/-- Keep entries while the listing is on. -/
def AsmOptions.shows (o : AsmOptions) (l : List ListingEntry) : List ListingEntry := if o.list = .off then [] else l

/-- What the listing shows of lines, with the options and the heading in force before them: PAGE feeds the form, SPC leaves
blank lines, and neither is shown itself; NAM changes the heading of the pages that follow, OPT the options for the lines
that follow (R117; DESIGN CHOICEs of the order, log 42). -/
def listEntries (symbols : Symbols) (o : AsmOptions) (heading : Option Chars) (l : List AsmLine) :
    Except AsmError (List ListingEntry) :=
  match l with
  | [] => .ok []
  | a :: rest =>
    match a.statement.body with
    | .listing .page =>
      (listEntries symbols o heading rest).map (o.shows (if o.page then [.formFeed heading] else []) ++ ·)
    | .listing (.spc e) =>
      match e.eval symbols a.location with
      | .error err => .error err
      | .ok n => (listEntries symbols o heading rest).map (o.shows (List.replicate n.toNat .blank) ++ ·)
    | .listing (.nam text) => (listEntries symbols o (some text) rest).map (o.shows [.line a.text] ++ ·)
    | .listing (.opt options) => (listEntries symbols (o.setAll options) heading rest).map (o.shows [.line a.text] ++ ·)
    | _ => (listEntries symbols o heading rest).map (o.shows [.line a.text] ++ ·)

/-- The name that a line gives the program (R117). -/
def AsmLine.name (l : AsmLine) : Option Chars :=
  match l.statement.body with
  | .listing (.nam text) => some text
  | _ => none

/-- The options after a line. -/
def AsmOptions.afterLine (o : AsmOptions) (l : AsmLine) : AsmOptions :=
  match l.statement.body with
  | .listing (.opt options) => o.setAll options
  | _ => o

/-- The listing of a program. -/
structure Listing where
  /-- the program's name, which heads the first page: that of the first NAM -/
  name : Option Chars
  entries : List ListingEntry
  /-- the options in force at the end -/
  options : AsmOptions
  /-- the symbols with their values in the order of their definition, unless NOSYMBOL is in force at the end -/
  symbols : Symbols
deriving DecidableEq, Repr

/-- The listing of a source text (R117, R119). -/
def programListing (source : List Chars) : Except AsmError Listing :=
  match assembleLines source with
  | .error e => .error e
  | .ok (symbols, lines) =>
    let name := lines.findSome? AsmLine.name
    let options := lines.foldl AsmOptions.afterLine .initial
    (listEntries symbols .initial name lines).map fun entries =>
      { name := name, entries := entries, options := options, symbols := if options.symbol then symbols.reverse else [] }

end Sys2Proof
end

