-- ==== Sys2Proof/Machine/Pins.lean ====
section
/-! DEFINITION. The output pins of the MPU in the states in which it executes nothing (R385, R390, R492, R493, R505),
and the wiring of devices to its inputs. -/

namespace Sys2Proof.Machine

/-- The outputs of an idle MPU; `none` is the high impedance state. -/
structure OutputPins where
  /-- Bus Available -/
  ba : Bool
  /-- Valid Memory Address -/
  vma : Bool
  /-- R/W, high for a read -/
  rw : Option Bool
  /-- the address bus -/
  address : Option Word
  /-- the data bus, which an MPU that executes nothing never drives -/
  data : Option Byte
deriving DecidableEq, Repr

/-- TSC high: address bus and R/W released, VMA and BA forced low, halted or not (R505, R390).  The data bus is released
too (DEDUCED, log 47): its drivers are enabled by DBE, which is normally phi-2, and phi-2 is held low (R505, R506). -/
def threeStatePins : OutputPins := { ba := false, vma := false, rw := none, address := none, data := none }

/-- RES low: the bus shows a read of the restart address, VMA and BA low, the data bus released (R372, R492, R493). -/
def resetPins : OutputPins := { ba := false, vma := false, rw := some true, address := some resVector, data := none }

/-- Halted or waiting: address bus, data bus and R/W are released and BA says so (R83, R385, R390). -/
def releasedPins : OutputPins := { ba := true, vma := false, rw := none, address := none, data := none }

/-- The outputs of an MPU that executes nothing; those of a running one change from cycle to cycle, in a way the spec does
not give (R522).  That TSC goes before RES, where R492 and R505 differ, is a DESIGN CHOICE (log 46). -/
def State.idlePins (s : State) : Option OutputPins :=
  if s.env.tscHigh then some threeStatePins
  else
    match s.ctl.runState with
    | .held => some resetPins
    | .halted => some releasedPins
    | .waiting => some releasedPins
    | .running => none

/-- The IRQ pin is low: some other hardware, or a device wired to it, pulls it (R34, R381). -/
def State.irqPinLow (s : State) : Bool := s.irqLine

/-- The levels a PIA drives on its A lines: output bits under ones of the direction register (R424), none elsewhere. -/
def PiaSide.drives (p : PiaSide) (k : Nat) : Option Bool :=
  if p.ddr.getLsbD k then some (p.out.getLsbD k) else none

/-- The level a PIA drives on C2, if it is an output (R430). -/
def PiaSide.drivesC2 (p : PiaSide) : Option Bool := if p.c2Output then some p.c2 else none

end Sys2Proof.Machine
end

