-- ==== Sys2Proof/Tests/Slice0.lean ====
section
/-! SUPPORT. Tests with expected results written out from the spec, and a witness for the hypotheses of each statement. -/

namespace Sys2Proof.Tests

open Sys2Proof.Machine

/-! ### Decoding: the opcode map of R103 with the operand layout of R100, row by row -/

theorem test_decode_row_0 :
    decode [0x01] = .ok (.nop, []) ∧ decode [0x06] = .ok (.tap, []) ∧ decode [0x07] = .ok (.tpa, []) ∧
      decode [0x08] = .ok (.inx, []) ∧ decode [0x09] = .ok (.dex, []) ∧ decode [0x0A] = .ok (.clv, []) ∧
      decode [0x0B] = .ok (.sev, []) ∧ decode [0x0C] = .ok (.clc, []) ∧ decode [0x0D] = .ok (.sec, []) ∧
      decode [0x0E] = .ok (.cli, []) ∧ decode [0x0F] = .ok (.sei, []) :=
  ⟨rfl, rfl, rfl, rfl, rfl, rfl, rfl, rfl, rfl, rfl, rfl⟩

theorem test_decode_row_1 :
    decode [0x10] = .ok (.sba, []) ∧ decode [0x11] = .ok (.cba, []) ∧ decode [0x16] = .ok (.tab, []) ∧
      decode [0x17] = .ok (.tba, []) ∧ decode [0x19] = .ok (.daa, []) ∧ decode [0x1B] = .ok (.aba, []) :=
  ⟨rfl, rfl, rfl, rfl, rfl, rfl⟩

theorem test_decode_row_2 :
    decode [0x20, 0xA5] = .ok (.bra 0xA5, []) ∧ decode [0x22, 0xA5] = .ok (.bhi 0xA5, []) ∧
      decode [0x23, 0xA5] = .ok (.bls 0xA5, []) ∧ decode [0x24, 0xA5] = .ok (.bcc 0xA5, []) ∧
      decode [0x25, 0xA5] = .ok (.bcs 0xA5, []) ∧ decode [0x26, 0xA5] = .ok (.bne 0xA5, []) ∧
      decode [0x27, 0xA5] = .ok (.beq 0xA5, []) ∧ decode [0x28, 0xA5] = .ok (.bvc 0xA5, []) ∧
      decode [0x29, 0xA5] = .ok (.bvs 0xA5, []) ∧ decode [0x2A, 0xA5] = .ok (.bpl 0xA5, []) ∧
      decode [0x2B, 0xA5] = .ok (.bmi 0xA5, []) ∧ decode [0x2C, 0xA5] = .ok (.bge 0xA5, []) ∧
      decode [0x2D, 0xA5] = .ok (.blt 0xA5, []) ∧ decode [0x2E, 0xA5] = .ok (.bgt 0xA5, []) ∧
      decode [0x2F, 0xA5] = .ok (.ble 0xA5, []) :=
  ⟨rfl, rfl, rfl, rfl, rfl, rfl, rfl, rfl, rfl, rfl, rfl, rfl, rfl, rfl, rfl⟩

theorem test_decode_row_3 :
    decode [0x30] = .ok (.tsx, []) ∧ decode [0x31] = .ok (.ins, []) ∧ decode [0x32] = .ok (.pula, []) ∧
      decode [0x33] = .ok (.pulb, []) ∧ decode [0x34] = .ok (.des, []) ∧ decode [0x35] = .ok (.txs, []) ∧
      decode [0x36] = .ok (.psha, []) ∧ decode [0x37] = .ok (.pshb, []) ∧ decode [0x39] = .ok (.rts, []) ∧
      decode [0x3B] = .ok (.rti, []) ∧ decode [0x3E] = .ok (.wai, []) ∧ decode [0x3F] = .ok (.swi, []) :=
  ⟨rfl, rfl, rfl, rfl, rfl, rfl, rfl, rfl, rfl, rfl, rfl, rfl⟩

theorem test_decode_row_4 :
    decode [0x40] = .ok (.nega, []) ∧ decode [0x43] = .ok (.coma, []) ∧ decode [0x44] = .ok (.lsra, []) ∧
      decode [0x46] = .ok (.rora, []) ∧ decode [0x47] = .ok (.asra, []) ∧ decode [0x48] = .ok (.asla, []) ∧
      decode [0x49] = .ok (.rola, []) ∧ decode [0x4A] = .ok (.deca, []) ∧ decode [0x4C] = .ok (.inca, []) ∧
      decode [0x4D] = .ok (.tsta, []) ∧ decode [0x4F] = .ok (.clra, []) :=
  ⟨rfl, rfl, rfl, rfl, rfl, rfl, rfl, rfl, rfl, rfl, rfl⟩

theorem test_decode_row_5 :
    decode [0x50] = .ok (.negb, []) ∧ decode [0x53] = .ok (.comb, []) ∧ decode [0x54] = .ok (.lsrb, []) ∧
      decode [0x56] = .ok (.rorb, []) ∧ decode [0x57] = .ok (.asrb, []) ∧ decode [0x58] = .ok (.aslb, []) ∧
      decode [0x59] = .ok (.rolb, []) ∧ decode [0x5A] = .ok (.decb, []) ∧ decode [0x5C] = .ok (.incb, []) ∧
      decode [0x5D] = .ok (.tstb, []) ∧ decode [0x5F] = .ok (.clrb, []) :=
  ⟨rfl, rfl, rfl, rfl, rfl, rfl, rfl, rfl, rfl, rfl, rfl⟩

theorem test_decode_row_6 :
    decode [0x60, 0xA5] = .ok (.negIdx 0xA5, []) ∧ decode [0x63, 0xA5] = .ok (.comIdx 0xA5, []) ∧
      decode [0x64, 0xA5] = .ok (.lsrIdx 0xA5, []) ∧ decode [0x66, 0xA5] = .ok (.rorIdx 0xA5, []) ∧
      decode [0x67, 0xA5] = .ok (.asrIdx 0xA5, []) ∧ decode [0x68, 0xA5] = .ok (.aslIdx 0xA5, []) ∧
      decode [0x69, 0xA5] = .ok (.rolIdx 0xA5, []) ∧ decode [0x6A, 0xA5] = .ok (.decIdx 0xA5, []) ∧
      decode [0x6C, 0xA5] = .ok (.incIdx 0xA5, []) ∧ decode [0x6D, 0xA5] = .ok (.tstIdx 0xA5, []) ∧
      decode [0x6E, 0xA5] = .ok (.jmpIdx 0xA5, []) ∧ decode [0x6F, 0xA5] = .ok (.clrIdx 0xA5, []) :=
  ⟨rfl, rfl, rfl, rfl, rfl, rfl, rfl, rfl, rfl, rfl, rfl, rfl⟩

theorem test_decode_row_7 :
    decode [0x70, 0x12, 0x34] = .ok (.negExt 0x1234, []) ∧ decode [0x73, 0x12, 0x34] = .ok (.comExt 0x1234, []) ∧
      decode [0x74, 0x12, 0x34] = .ok (.lsrExt 0x1234, []) ∧ decode [0x76, 0x12, 0x34] = .ok (.rorExt 0x1234, []) ∧
      decode [0x77, 0x12, 0x34] = .ok (.asrExt 0x1234, []) ∧ decode [0x78, 0x12, 0x34] = .ok (.aslExt 0x1234, []) ∧
      decode [0x79, 0x12, 0x34] = .ok (.rolExt 0x1234, []) ∧ decode [0x7A, 0x12, 0x34] = .ok (.decExt 0x1234, []) ∧
      decode [0x7C, 0x12, 0x34] = .ok (.incExt 0x1234, []) ∧ decode [0x7D, 0x12, 0x34] = .ok (.tstExt 0x1234, []) ∧
      decode [0x7E, 0x12, 0x34] = .ok (.jmpExt 0x1234, []) ∧ decode [0x7F, 0x12, 0x34] = .ok (.clrExt 0x1234, []) :=
  ⟨rfl, rfl, rfl, rfl, rfl, rfl, rfl, rfl, rfl, rfl, rfl, rfl⟩

theorem test_decode_row_8 :
    decode [0x80, 0xA5] = .ok (.subaImm 0xA5, []) ∧ decode [0x81, 0xA5] = .ok (.cmpaImm 0xA5, []) ∧
      decode [0x82, 0xA5] = .ok (.sbcaImm 0xA5, []) ∧ decode [0x84, 0xA5] = .ok (.andaImm 0xA5, []) ∧
      decode [0x85, 0xA5] = .ok (.bitaImm 0xA5, []) ∧ decode [0x86, 0xA5] = .ok (.ldaaImm 0xA5, []) ∧
      decode [0x88, 0xA5] = .ok (.eoraImm 0xA5, []) ∧ decode [0x89, 0xA5] = .ok (.adcaImm 0xA5, []) ∧
      decode [0x8A, 0xA5] = .ok (.oraaImm 0xA5, []) ∧ decode [0x8B, 0xA5] = .ok (.addaImm 0xA5, []) ∧
      decode [0x8C, 0x12, 0x34] = .ok (.cpxImm 0x1234, []) ∧ decode [0x8D, 0xA5] = .ok (.bsr 0xA5, []) ∧
      decode [0x8E, 0x12, 0x34] = .ok (.ldsImm 0x1234, []) :=
  ⟨rfl, rfl, rfl, rfl, rfl, rfl, rfl, rfl, rfl, rfl, rfl, rfl, rfl⟩

theorem test_decode_row_9 :
    decode [0x90, 0xA5] = .ok (.subaDir 0xA5, []) ∧ decode [0x91, 0xA5] = .ok (.cmpaDir 0xA5, []) ∧
      decode [0x92, 0xA5] = .ok (.sbcaDir 0xA5, []) ∧ decode [0x94, 0xA5] = .ok (.andaDir 0xA5, []) ∧
      decode [0x95, 0xA5] = .ok (.bitaDir 0xA5, []) ∧ decode [0x96, 0xA5] = .ok (.ldaaDir 0xA5, []) ∧
      decode [0x97, 0xA5] = .ok (.staaDir 0xA5, []) ∧ decode [0x98, 0xA5] = .ok (.eoraDir 0xA5, []) ∧
      decode [0x99, 0xA5] = .ok (.adcaDir 0xA5, []) ∧ decode [0x9A, 0xA5] = .ok (.oraaDir 0xA5, []) ∧
      decode [0x9B, 0xA5] = .ok (.addaDir 0xA5, []) ∧ decode [0x9C, 0xA5] = .ok (.cpxDir 0xA5, []) ∧
      decode [0x9E, 0xA5] = .ok (.ldsDir 0xA5, []) ∧ decode [0x9F, 0xA5] = .ok (.stsDir 0xA5, []) :=
  ⟨rfl, rfl, rfl, rfl, rfl, rfl, rfl, rfl, rfl, rfl, rfl, rfl, rfl, rfl⟩

theorem test_decode_row_A :
    decode [0xA0, 0xA5] = .ok (.subaIdx 0xA5, []) ∧ decode [0xA1, 0xA5] = .ok (.cmpaIdx 0xA5, []) ∧
      decode [0xA2, 0xA5] = .ok (.sbcaIdx 0xA5, []) ∧ decode [0xA4, 0xA5] = .ok (.andaIdx 0xA5, []) ∧
      decode [0xA5, 0xA5] = .ok (.bitaIdx 0xA5, []) ∧ decode [0xA6, 0xA5] = .ok (.ldaaIdx 0xA5, []) ∧
      decode [0xA7, 0xA5] = .ok (.staaIdx 0xA5, []) ∧ decode [0xA8, 0xA5] = .ok (.eoraIdx 0xA5, []) ∧
      decode [0xA9, 0xA5] = .ok (.adcaIdx 0xA5, []) ∧ decode [0xAA, 0xA5] = .ok (.oraaIdx 0xA5, []) ∧
      decode [0xAB, 0xA5] = .ok (.addaIdx 0xA5, []) ∧ decode [0xAC, 0xA5] = .ok (.cpxIdx 0xA5, []) ∧
      decode [0xAD, 0xA5] = .ok (.jsrIdx 0xA5, []) ∧ decode [0xAE, 0xA5] = .ok (.ldsIdx 0xA5, []) ∧
      decode [0xAF, 0xA5] = .ok (.stsIdx 0xA5, []) :=
  ⟨rfl, rfl, rfl, rfl, rfl, rfl, rfl, rfl, rfl, rfl, rfl, rfl, rfl, rfl, rfl⟩

theorem test_decode_row_B :
    decode [0xB0, 0x12, 0x34] = .ok (.subaExt 0x1234, []) ∧ decode [0xB1, 0x12, 0x34] = .ok (.cmpaExt 0x1234, []) ∧
      decode [0xB2, 0x12, 0x34] = .ok (.sbcaExt 0x1234, []) ∧ decode [0xB4, 0x12, 0x34] = .ok (.andaExt 0x1234, []) ∧
      decode [0xB5, 0x12, 0x34] = .ok (.bitaExt 0x1234, []) ∧ decode [0xB6, 0x12, 0x34] = .ok (.ldaaExt 0x1234, []) ∧
      decode [0xB7, 0x12, 0x34] = .ok (.staaExt 0x1234, []) ∧ decode [0xB8, 0x12, 0x34] = .ok (.eoraExt 0x1234, []) ∧
      decode [0xB9, 0x12, 0x34] = .ok (.adcaExt 0x1234, []) ∧ decode [0xBA, 0x12, 0x34] = .ok (.oraaExt 0x1234, []) ∧
      decode [0xBB, 0x12, 0x34] = .ok (.addaExt 0x1234, []) ∧ decode [0xBC, 0x12, 0x34] = .ok (.cpxExt 0x1234, []) ∧
      decode [0xBD, 0x12, 0x34] = .ok (.jsrExt 0x1234, []) ∧ decode [0xBE, 0x12, 0x34] = .ok (.ldsExt 0x1234, []) ∧
      decode [0xBF, 0x12, 0x34] = .ok (.stsExt 0x1234, []) :=
  ⟨rfl, rfl, rfl, rfl, rfl, rfl, rfl, rfl, rfl, rfl, rfl, rfl, rfl, rfl, rfl⟩

theorem test_decode_row_C :
    decode [0xC0, 0xA5] = .ok (.subbImm 0xA5, []) ∧ decode [0xC1, 0xA5] = .ok (.cmpbImm 0xA5, []) ∧
      decode [0xC2, 0xA5] = .ok (.sbcbImm 0xA5, []) ∧ decode [0xC4, 0xA5] = .ok (.andbImm 0xA5, []) ∧
      decode [0xC5, 0xA5] = .ok (.bitbImm 0xA5, []) ∧ decode [0xC6, 0xA5] = .ok (.ldabImm 0xA5, []) ∧
      decode [0xC8, 0xA5] = .ok (.eorbImm 0xA5, []) ∧ decode [0xC9, 0xA5] = .ok (.adcbImm 0xA5, []) ∧
      decode [0xCA, 0xA5] = .ok (.orabImm 0xA5, []) ∧ decode [0xCB, 0xA5] = .ok (.addbImm 0xA5, []) ∧
      decode [0xCE, 0x12, 0x34] = .ok (.ldxImm 0x1234, []) :=
  ⟨rfl, rfl, rfl, rfl, rfl, rfl, rfl, rfl, rfl, rfl, rfl⟩

theorem test_decode_row_D :
    decode [0xD0, 0xA5] = .ok (.subbDir 0xA5, []) ∧ decode [0xD1, 0xA5] = .ok (.cmpbDir 0xA5, []) ∧
      decode [0xD2, 0xA5] = .ok (.sbcbDir 0xA5, []) ∧ decode [0xD4, 0xA5] = .ok (.andbDir 0xA5, []) ∧
      decode [0xD5, 0xA5] = .ok (.bitbDir 0xA5, []) ∧ decode [0xD6, 0xA5] = .ok (.ldabDir 0xA5, []) ∧
      decode [0xD7, 0xA5] = .ok (.stabDir 0xA5, []) ∧ decode [0xD8, 0xA5] = .ok (.eorbDir 0xA5, []) ∧
      decode [0xD9, 0xA5] = .ok (.adcbDir 0xA5, []) ∧ decode [0xDA, 0xA5] = .ok (.orabDir 0xA5, []) ∧
      decode [0xDB, 0xA5] = .ok (.addbDir 0xA5, []) ∧ decode [0xDE, 0xA5] = .ok (.ldxDir 0xA5, []) ∧
      decode [0xDF, 0xA5] = .ok (.stxDir 0xA5, []) :=
  ⟨rfl, rfl, rfl, rfl, rfl, rfl, rfl, rfl, rfl, rfl, rfl, rfl, rfl⟩

theorem test_decode_row_E :
    decode [0xE0, 0xA5] = .ok (.subbIdx 0xA5, []) ∧ decode [0xE1, 0xA5] = .ok (.cmpbIdx 0xA5, []) ∧
      decode [0xE2, 0xA5] = .ok (.sbcbIdx 0xA5, []) ∧ decode [0xE4, 0xA5] = .ok (.andbIdx 0xA5, []) ∧
      decode [0xE5, 0xA5] = .ok (.bitbIdx 0xA5, []) ∧ decode [0xE6, 0xA5] = .ok (.ldabIdx 0xA5, []) ∧
      decode [0xE7, 0xA5] = .ok (.stabIdx 0xA5, []) ∧ decode [0xE8, 0xA5] = .ok (.eorbIdx 0xA5, []) ∧
      decode [0xE9, 0xA5] = .ok (.adcbIdx 0xA5, []) ∧ decode [0xEA, 0xA5] = .ok (.orabIdx 0xA5, []) ∧
      decode [0xEB, 0xA5] = .ok (.addbIdx 0xA5, []) ∧ decode [0xEE, 0xA5] = .ok (.ldxIdx 0xA5, []) ∧
      decode [0xEF, 0xA5] = .ok (.stxIdx 0xA5, []) :=
  ⟨rfl, rfl, rfl, rfl, rfl, rfl, rfl, rfl, rfl, rfl, rfl, rfl, rfl⟩

theorem test_decode_row_F :
    decode [0xF0, 0x12, 0x34] = .ok (.subbExt 0x1234, []) ∧ decode [0xF1, 0x12, 0x34] = .ok (.cmpbExt 0x1234, []) ∧
      decode [0xF2, 0x12, 0x34] = .ok (.sbcbExt 0x1234, []) ∧ decode [0xF4, 0x12, 0x34] = .ok (.andbExt 0x1234, []) ∧
      decode [0xF5, 0x12, 0x34] = .ok (.bitbExt 0x1234, []) ∧ decode [0xF6, 0x12, 0x34] = .ok (.ldabExt 0x1234, []) ∧
      decode [0xF7, 0x12, 0x34] = .ok (.stabExt 0x1234, []) ∧ decode [0xF8, 0x12, 0x34] = .ok (.eorbExt 0x1234, []) ∧
      decode [0xF9, 0x12, 0x34] = .ok (.adcbExt 0x1234, []) ∧ decode [0xFA, 0x12, 0x34] = .ok (.orabExt 0x1234, []) ∧
      decode [0xFB, 0x12, 0x34] = .ok (.addbExt 0x1234, []) ∧ decode [0xFE, 0x12, 0x34] = .ok (.ldxExt 0x1234, []) ∧
      decode [0xFF, 0x12, 0x34] = .ok (.stxExt 0x1234, []) :=
  ⟨rfl, rfl, rfl, rfl, rfl, rfl, rfl, rfl, rfl, rfl, rfl, rfl, rfl⟩

theorem test_decode_refuses :
    decode [0x00] = .error (.undefinedOpcode 0x00) ∧ decode [0x87, 0x00] = .error (.undefinedOpcode 0x87) ∧
      decode [0xFD, 0x12, 0x34] = .error (.undefinedOpcode 0xFD) ∧ decode [0x8E, 0x12] = .error .truncated ∧
      decode [] = .error .truncated := ⟨rfl, rfl, rfl, rfl, rfl⟩

theorem test_decode_table_word :
    decodeTableWord 8 0x8B = some (.addaImm 0x00) ∧ decodeTableWord 16 0x138B = some (.addaImm 0x13) ∧
      decodeTableWord 24 0x3412B6 = some (.ldaaExt 0x1234) ∧ decodeTableWord 8 0x02 = none := ⟨rfl, rfl, rfl, rfl⟩

/-! ### Well-formedness -/

/-- A select whose value has a bit it does not care about is refused. -/
theorem test_select_refused : Select.wellFormed { care := 0xFF00, value := 0x0001, target := .ram 0 0xFF } = false := by
  decide

/-- Two selects that both respond to 4004 are refused (R61, U8). -/
theorem test_overlap_refused :
    MemoryMap.legal [{ care := 0xC004, value := 0x4004, target := .pia 0 0 },
      { care := 0xFFFF, value := 0x4004, target := .ram 0 0 }] = false := by decide

/-- A map with an ill-formed select is refused, and so is the event that would install it. -/
theorem test_map_refused :
    MemoryMap.legal [{ care := 0, value := 1, target := .ram 0 0 }] = false ∧
      State.reset.event (.remap [{ care := 0, value := 1, target := .ram 0 0 }]) = .error .illegalMap := by decide

/-- R75: the minimum system, and the DMA example with its PIA at 4000 to 4003; FFF8 answers as C3F8 (R73). -/
theorem test_example_maps :
    minimumSystemMap.legal = true ∧ regionOf minimumSystemMap 0x4006 = .pia 0 0b10 ∧
      regionOf minimumSystemMap 0x400C = .unpopulated ∧ dmaExampleMap.legal = true ∧
      regionOf dmaExampleMap 0x4001 = .pia 0 0b01 ∧ regionOf dmaExampleMap 0x007F = .ram 0x007F ∧
      regionOf dmaExampleMap 0xFFF8 = .rom 0xC3F8 ∧ regionOf dmaExampleMap 0x8000 = .unpopulated := by decide

/-- No operand byte is reserved: the extreme operands are well formed (R112). -/
theorem test_every_operand_wellFormed :
    Instr.wellFormed (.ldaaImm 0xFF) = true ∧ Instr.wellFormed (.ldxExt 0xFFFF) = true := ⟨rfl, rfl⟩

/-- A memory with a cell that holds the unlisted value, with addresses that do not rise, or with one beyond FFFF is not in
canonical form. -/
theorem test_memory_refused :
    Memory.wf [(0, 0)] = false ∧ Memory.wf [(2, 1), (1, 1)] = false ∧ Memory.wf [(65536, 1)] = false ∧
      Memory.wf [(1, 5), (65535, 1)] = true := by decide

/-! ### One instruction, one step: rows of 96_derived_vectors.md V1 to V6 -/

/-- A row of 96_derived_vectors.md V1 to V6: the bytes at 1000, the registers, the flags HINZVC and the memory before, and
the same with PC after. -/
structure Vec where
  code : List Byte
  a : Byte
  b : Byte
  x : Word
  sp : Word
  flags : BitVec 6
  mem : List (Word × Byte)
  a' : Byte
  b' : Byte
  x' : Word
  sp' : Word
  flags' : BitVec 6
  pc' : Word
  mem' : List (Word × Byte)

/-- Read/write memory throughout. -/
def flat : System := { System.initial with board := { System.initial.board with map := flatMap } }

def ccrOf (f : BitVec 6) : Ccr := Ccr.ofByte (f.zeroExtend 8)

/-- A running machine on flat memory, at 1000. -/
def onFlat (a b : Byte) (x sp : Word) (flags : BitVec 6) (mem : List (Word × List Byte)) : State :=
  { State.reset with
    cpu := { a := a, b := b, x := x, sp := sp, pc := 0x1000, ccr := ccrOf flags }
    sys := flat.load mem }

def Vec.start (v : Vec) : State :=
  onFlat v.a v.b v.x v.sp v.flags ((0x1000, v.code) :: v.mem.map fun p => (p.1, [p.2]))

def Vec.passes (v : Vec) : Bool :=
  match step v.start with
  | .next t =>
    decide (t.cpu = { a := v.a', b := v.b', x := v.x', sp := v.sp', pc := v.pc', ccr := ccrOf v.flags' }) &&
      v.mem'.all fun p => t.sys.cell p.1 == some p.2
  | .fault _ => false
  | .refused _ => false

theorem test_clc :
    [⟨[0x0C], 0x00, 0x00, 0x0000, 0x01FF, 0b111111, [], 0x00, 0x00, 0x0000, 0x01FF, 0b111110, 0x1001, []⟩,
      ⟨[0x0C], 0x00, 0x00, 0x0000, 0x01FF, 0b000000, [], 0x00, 0x00, 0x0000, 0x01FF, 0b000000, 0x1001, []⟩].all Vec.passes = true := by decide

theorem test_cli :
    [⟨[0x0E], 0x00, 0x00, 0x0000, 0x01FF, 0b111111, [], 0x00, 0x00, 0x0000, 0x01FF, 0b101111, 0x1001, []⟩,
      ⟨[0x0E], 0x00, 0x00, 0x0000, 0x01FF, 0b000000, [], 0x00, 0x00, 0x0000, 0x01FF, 0b000000, 0x1001, []⟩].all Vec.passes = true := by decide

theorem test_clv :
    [⟨[0x0A], 0x00, 0x00, 0x0000, 0x01FF, 0b111111, [], 0x00, 0x00, 0x0000, 0x01FF, 0b111101, 0x1001, []⟩,
      ⟨[0x0A], 0x00, 0x00, 0x0000, 0x01FF, 0b000000, [], 0x00, 0x00, 0x0000, 0x01FF, 0b000000, 0x1001, []⟩].all Vec.passes = true := by decide

theorem test_sec :
    [⟨[0x0D], 0x00, 0x00, 0x0000, 0x01FF, 0b000000, [], 0x00, 0x00, 0x0000, 0x01FF, 0b000001, 0x1001, []⟩,
      ⟨[0x0D], 0x00, 0x00, 0x0000, 0x01FF, 0b111111, [], 0x00, 0x00, 0x0000, 0x01FF, 0b111111, 0x1001, []⟩].all Vec.passes = true := by decide

theorem test_sei :
    [⟨[0x0F], 0x00, 0x00, 0x0000, 0x01FF, 0b000000, [], 0x00, 0x00, 0x0000, 0x01FF, 0b010000, 0x1001, []⟩,
      ⟨[0x0F], 0x00, 0x00, 0x0000, 0x01FF, 0b111111, [], 0x00, 0x00, 0x0000, 0x01FF, 0b111111, 0x1001, []⟩].all Vec.passes = true := by decide

theorem test_sev :
    [⟨[0x0B], 0x00, 0x00, 0x0000, 0x01FF, 0b000000, [], 0x00, 0x00, 0x0000, 0x01FF, 0b000010, 0x1001, []⟩,
      ⟨[0x0B], 0x00, 0x00, 0x0000, 0x01FF, 0b111111, [], 0x00, 0x00, 0x0000, 0x01FF, 0b111111, 0x1001, []⟩].all Vec.passes = true := by decide

theorem test_tap :
    [⟨[0x06], 0x00, 0x00, 0x0000, 0x01FF, 0b111111, [], 0x00, 0x00, 0x0000, 0x01FF, 0b000000, 0x1001, []⟩,
      ⟨[0x06], 0xFF, 0x00, 0x0000, 0x01FF, 0b000000, [], 0xFF, 0x00, 0x0000, 0x01FF, 0b111111, 0x1001, []⟩].all Vec.passes = true := by decide

theorem test_tpa :
    [⟨[0x07], 0x00, 0x00, 0x0000, 0x01FF, 0b000000, [], 0xC0, 0x00, 0x0000, 0x01FF, 0b000000, 0x1001, []⟩,
      ⟨[0x07], 0x00, 0x00, 0x0000, 0x01FF, 0b111111, [], 0xFF, 0x00, 0x0000, 0x01FF, 0b111111, 0x1001, []⟩].all Vec.passes = true := by decide

theorem test_add :
    [⟨[0x8B, 0x01], 0x7F, 0x00, 0x0000, 0x01FF, 0b000000, [], 0x80, 0x00, 0x0000, 0x01FF, 0b101010, 0x1002, []⟩,
      ⟨[0x9B, 0x40], 0xFF, 0x00, 0x0000, 0x01FF, 0b000001, [(0x0040, 0x01)], 0x00, 0x00, 0x0000, 0x01FF, 0b100101, 0x1002, [(0x0040, 0x01)]⟩,
      ⟨[0xAB, 0x05], 0x0F, 0x00, 0x0400, 0x01FF, 0b000000, [(0x0405, 0x01)], 0x10, 0x00, 0x0400, 0x01FF, 0b100000, 0x1002, [(0x0405, 0x01)]⟩,
      ⟨[0xBB, 0x20, 0x00], 0x80, 0x00, 0x0000, 0x01FF, 0b000000, [(0x2000, 0x80)], 0x00, 0x00, 0x0000, 0x01FF, 0b000111, 0x1003, [(0x2000, 0x80)]⟩,
      ⟨[0xCB, 0xFF], 0x00, 0x01, 0x0000, 0x01FF, 0b010000, [], 0x00, 0x00, 0x0000, 0x01FF, 0b110101, 0x1002, []⟩,
      ⟨[0xDB, 0x10], 0x00, 0x08, 0x0000, 0x01FF, 0b000000, [(0x0010, 0x08)], 0x00, 0x10, 0x0000, 0x01FF, 0b100000, 0x1002, [(0x0010, 0x08)]⟩,
      ⟨[0xEB, 0xFF], 0x00, 0x00, 0xFF80, 0x01FF, 0b000000, [(0x007F, 0x55)], 0x00, 0x55, 0xFF80, 0x01FF, 0b000000, 0x1002, [(0x007F, 0x55)]⟩,
      ⟨[0xFB, 0x01, 0x00], 0x00, 0x40, 0x0000, 0x01FF, 0b000000, [(0x0100, 0x40)], 0x00, 0x80, 0x0000, 0x01FF, 0b001010, 0x1003, [(0x0100, 0x40)]⟩].all Vec.passes = true := by decide

theorem test_aba :
    [⟨[0x1B], 0xAA, 0xCC, 0x0000, 0x01FF, 0b000000, [], 0x76, 0xCC, 0x0000, 0x01FF, 0b100011, 0x1001, []⟩].all Vec.passes = true := by decide

theorem test_adc :
    [⟨[0x89, 0x00], 0xFF, 0x00, 0x0000, 0x01FF, 0b000001, [], 0x00, 0x00, 0x0000, 0x01FF, 0b100101, 0x1002, []⟩,
      ⟨[0x99, 0x40], 0xAA, 0x00, 0x0000, 0x01FF, 0b000001, [(0x0040, 0xCC)], 0x77, 0x00, 0x0000, 0x01FF, 0b100011, 0x1002, [(0x0040, 0xCC)]⟩,
      ⟨[0xA9, 0x0F], 0x13, 0x00, 0x0102, 0x01FF, 0b000000, [(0x0111, 0x52)], 0x65, 0x00, 0x0102, 0x01FF, 0b000000, 0x1002, [(0x0111, 0x52)]⟩,
      ⟨[0xB9, 0x01, 0x00], 0x7F, 0x00, 0x0000, 0x01FF, 0b000001, [(0x0100, 0x7F)], 0xFF, 0x00, 0x0000, 0x01FF, 0b101010, 0x1003, [(0x0100, 0x7F)]⟩,
      ⟨[0xC9, 0x00], 0x00, 0x0F, 0x0000, 0x01FF, 0b000001, [], 0x00, 0x10, 0x0000, 0x01FF, 0b100000, 0x1002, []⟩,
      ⟨[0xD9, 0x82], 0x00, 0x00, 0x0000, 0x01FF, 0b000000, [(0x0082, 0x00)], 0x00, 0x00, 0x0000, 0x01FF, 0b000100, 0x1002, [(0x0082, 0x00)]⟩,
      ⟨[0xE9, 0x00], 0x00, 0x80, 0x0080, 0x01FF, 0b000001, [(0x0080, 0x7F)], 0x00, 0x00, 0x0080, 0x01FF, 0b100101, 0x1002, [(0x0080, 0x7F)]⟩,
      ⟨[0xF9, 0x00, 0x82], 0x00, 0xFE, 0x0000, 0x01FF, 0b000001, [(0x0082, 0x01)], 0x00, 0x00, 0x0000, 0x01FF, 0b100101, 0x1003, [(0x0082, 0x01)]⟩].all Vec.passes = true := by decide

theorem test_sub :
    [⟨[0x80, 0x01], 0x80, 0x00, 0x0000, 0x01FF, 0b000000, [], 0x7F, 0x00, 0x0000, 0x01FF, 0b000010, 0x1002, []⟩,
      ⟨[0x90, 0x83], 0x65, 0x00, 0x0000, 0x01FF, 0b000000, [(0x0083, 0x87)], 0xDE, 0x00, 0x0000, 0x01FF, 0b001011, 0x1002, [(0x0083, 0x87)]⟩,
      ⟨[0xA0, 0x00], 0x99, 0x00, 0x0008, 0x01FF, 0b000000, [(0x0008, 0x79)], 0x20, 0x00, 0x0008, 0x01FF, 0b000010, 0x1002, [(0x0008, 0x79)]⟩,
      ⟨[0xB0, 0x12, 0x34], 0x00, 0x00, 0x0000, 0x01FF, 0b000000, [(0x1234, 0x00)], 0x00, 0x00, 0x0000, 0x01FF, 0b000100, 0x1003, [(0x1234, 0x00)]⟩,
      ⟨[0xC0, 0x09], 0x00, 0x0C, 0x0000, 0x01FF, 0b000000, [], 0x00, 0x03, 0x0000, 0x01FF, 0b000000, 0x1002, []⟩,
      ⟨[0xD0, 0x00], 0x00, 0x00, 0x0000, 0x01FF, 0b000000, [(0x0000, 0x01)], 0x00, 0xFF, 0x0000, 0x01FF, 0b001001, 0x1002, [(0x0000, 0x01)]⟩,
      ⟨[0xE0, 0x01], 0x00, 0x7F, 0xFFFF, 0x01FF, 0b000000, [(0x0000, 0xFF)], 0x00, 0x80, 0xFFFF, 0x01FF, 0b001011, 0x1002, [(0x0000, 0xFF)]⟩,
      ⟨[0xF0, 0xFF, 0xFF], 0x00, 0x00, 0x0000, 0x01FF, 0b000000, [(0xFFFF, 0x80)], 0x00, 0x80, 0x0000, 0x01FF, 0b001011, 0x1003, [(0xFFFF, 0x80)]⟩].all Vec.passes = true := by decide

theorem test_sba :
    [⟨[0x10], 0x05, 0x05, 0x0000, 0x01FF, 0b000000, [], 0x00, 0x05, 0x0000, 0x01FF, 0b000100, 0x1001, []⟩,
      ⟨[0x10], 0x80, 0x01, 0x0000, 0x01FF, 0b100000, [], 0x7F, 0x01, 0x0000, 0x01FF, 0b100010, 0x1001, []⟩].all Vec.passes = true := by decide

theorem test_sbc :
    [⟨[0x82, 0x7B], 0xBC, 0x00, 0x0000, 0x01FF, 0b000001, [], 0x40, 0x00, 0x0000, 0x01FF, 0b000010, 0x1002, []⟩,
      ⟨[0x92, 0x10], 0x00, 0x00, 0x0000, 0x01FF, 0b000001, [(0x0010, 0xFF)], 0x00, 0x00, 0x0000, 0x01FF, 0b000101, 0x1002, [(0x0010, 0xFF)]⟩,
      ⟨[0xA2, 0x02], 0x01, 0x00, 0x0010, 0x01FF, 0b000001, [(0x0012, 0x00)], 0x00, 0x00, 0x0010, 0x01FF, 0b000100, 0x1002, [(0x0012, 0x00)]⟩,
      ⟨[0xB2, 0x00, 0x50], 0x50, 0x00, 0x0000, 0x01FF, 0b000000, [(0x0050, 0x50)], 0x00, 0x00, 0x0000, 0x01FF, 0b000100, 0x1003, [(0x0050, 0x50)]⟩,
      ⟨[0xC2, 0x00], 0x00, 0x00, 0x0000, 0x01FF, 0b000001, [], 0x00, 0xFF, 0x0000, 0x01FF, 0b001001, 0x1002, []⟩,
      ⟨[0xD2, 0x82], 0x00, 0x80, 0x0000, 0x01FF, 0b000001, [(0x0082, 0x00)], 0x00, 0x7F, 0x0000, 0x01FF, 0b000010, 0x1002, [(0x0082, 0x00)]⟩,
      ⟨[0xE2, 0x00], 0x00, 0x10, 0x0100, 0x01FF, 0b000000, [(0x0100, 0x20)], 0x00, 0xF0, 0x0100, 0x01FF, 0b001001, 0x1002, [(0x0100, 0x20)]⟩,
      ⟨[0xF2, 0x01, 0x00], 0x00, 0x7F, 0x0000, 0x01FF, 0b000001, [(0x0100, 0xFF)], 0x00, 0x7F, 0x0000, 0x01FF, 0b000001, 0x1003, [(0x0100, 0xFF)]⟩].all Vec.passes = true := by decide

theorem test_neg :
    [⟨[0x60, 0x00], 0x00, 0x00, 0x0200, 0x01FF, 0b000000, [(0x0200, 0x01)], 0x00, 0x00, 0x0200, 0x01FF, 0b001001, 0x1002, [(0x0200, 0xFF)]⟩,
      ⟨[0x70, 0x02, 0x00], 0x00, 0x00, 0x0000, 0x01FF, 0b000000, [(0x0200, 0x80)], 0x00, 0x00, 0x0000, 0x01FF, 0b001011, 0x1003, [(0x0200, 0x80)]⟩,
      ⟨[0x40], 0x00, 0x00, 0x0000, 0x01FF, 0b000001, [], 0x00, 0x00, 0x0000, 0x01FF, 0b000100, 0x1001, []⟩,
      ⟨[0x40], 0x80, 0x00, 0x0000, 0x01FF, 0b000000, [], 0x80, 0x00, 0x0000, 0x01FF, 0b001011, 0x1001, []⟩,
      ⟨[0x50], 0x00, 0xFF, 0x0000, 0x01FF, 0b000000, [], 0x00, 0x01, 0x0000, 0x01FF, 0b000001, 0x1001, []⟩,
      ⟨[0x50], 0x00, 0xF1, 0x0000, 0x01FF, 0b000000, [], 0x00, 0x0F, 0x0000, 0x01FF, 0b000001, 0x1001, []⟩].all Vec.passes = true := by decide

theorem test_and :
    [⟨[0x84, 0x01], 0xFF, 0x00, 0x0000, 0x01FF, 0b100011, [], 0x01, 0x00, 0x0000, 0x01FF, 0b100001, 0x1002, []⟩,
      ⟨[0x94, 0x20], 0x81, 0x00, 0x0000, 0x01FF, 0b000010, [(0x0020, 0x80)], 0x80, 0x00, 0x0000, 0x01FF, 0b001000, 0x1002, [(0x0020, 0x80)]⟩,
      ⟨[0xA4, 0x00], 0x55, 0x00, 0x0030, 0x01FF, 0b000000, [(0x0030, 0xFF)], 0x55, 0x00, 0x0030, 0x01FF, 0b000000, 0x1002, [(0x0030, 0xFF)]⟩,
      ⟨[0xB4, 0x40, 0x05], 0xAA, 0x00, 0x0000, 0x01FF, 0b000000, [(0x4005, 0x55)], 0x00, 0x00, 0x0000, 0x01FF, 0b000100, 0x1003, [(0x4005, 0x55)]⟩,
      ⟨[0xC4, 0x80], 0x00, 0x80, 0x0000, 0x01FF, 0b000000, [], 0x00, 0x80, 0x0000, 0x01FF, 0b001000, 0x1002, []⟩,
      ⟨[0xD4, 0x20], 0x00, 0x3C, 0x0000, 0x01FF, 0b000000, [(0x0020, 0x0F)], 0x00, 0x0C, 0x0000, 0x01FF, 0b000000, 0x1002, [(0x0020, 0x0F)]⟩,
      ⟨[0xE4, 0x01], 0x00, 0xFF, 0x00FF, 0x01FF, 0b000000, [(0x0100, 0x00)], 0x00, 0x00, 0x00FF, 0x01FF, 0b000100, 0x1002, [(0x0100, 0x00)]⟩,
      ⟨[0xF4, 0x01, 0x00], 0x00, 0x7F, 0x0000, 0x01FF, 0b000001, [(0x0100, 0xFF)], 0x00, 0x7F, 0x0000, 0x01FF, 0b000001, 0x1003, [(0x0100, 0xFF)]⟩].all Vec.passes = true := by decide

theorem test_eor :
    [⟨[0x88, 0xFF], 0xFF, 0x00, 0x0000, 0x01FF, 0b000011, [], 0x00, 0x00, 0x0000, 0x01FF, 0b000101, 0x1002, []⟩,
      ⟨[0x98, 0x88], 0x01, 0x00, 0x0000, 0x01FF, 0b000000, [(0x0088, 0x00)], 0x01, 0x00, 0x0000, 0x01FF, 0b000000, 0x1002, [(0x0088, 0x00)]⟩,
      ⟨[0xA8, 0x10], 0x0F, 0x00, 0x0000, 0x01FF, 0b000000, [(0x0010, 0xF0)], 0xFF, 0x00, 0x0000, 0x01FF, 0b001000, 0x1002, [(0x0010, 0xF0)]⟩,
      ⟨[0xB8, 0x00, 0x88], 0x80, 0x00, 0x0000, 0x01FF, 0b000000, [(0x0088, 0x80)], 0x00, 0x00, 0x0000, 0x01FF, 0b000100, 0x1003, [(0x0088, 0x80)]⟩,
      ⟨[0xC8, 0x55], 0x00, 0xAA, 0x0000, 0x01FF, 0b000000, [], 0x00, 0xFF, 0x0000, 0x01FF, 0b001000, 0x1002, []⟩,
      ⟨[0xD8, 0x00], 0x00, 0x00, 0x0000, 0x01FF, 0b000000, [(0x0000, 0x00)], 0x00, 0x00, 0x0000, 0x01FF, 0b000100, 0x1002, [(0x0000, 0x00)]⟩,
      ⟨[0xE8, 0x00], 0x00, 0x12, 0x1234, 0x01FF, 0b000000, [(0x1234, 0x12)], 0x00, 0x00, 0x1234, 0x01FF, 0b000100, 0x1002, [(0x1234, 0x12)]⟩,
      ⟨[0xF8, 0x20, 0x00], 0x00, 0x00, 0x0000, 0x01FF, 0b000000, [(0x2000, 0x80)], 0x00, 0x80, 0x0000, 0x01FF, 0b001000, 0x1003, [(0x2000, 0x80)]⟩].all Vec.passes = true := by decide

theorem test_ora :
    [⟨[0x8A, 0x80], 0x0F, 0x00, 0x0000, 0x01FF, 0b000010, [], 0x8F, 0x00, 0x0000, 0x01FF, 0b001000, 0x1002, []⟩,
      ⟨[0x9A, 0x00], 0x00, 0x00, 0x0000, 0x01FF, 0b000001, [(0x0000, 0x00)], 0x00, 0x00, 0x0000, 0x01FF, 0b000101, 0x1002, [(0x0000, 0x00)]⟩,
      ⟨[0xAA, 0x00], 0x20, 0x00, 0x0F00, 0x01FF, 0b000000, [(0x0F00, 0x08)], 0x28, 0x00, 0x0F00, 0x01FF, 0b000000, 0x1002, [(0x0F00, 0x08)]⟩,
      ⟨[0xBA, 0x40, 0x06], 0x01, 0x00, 0x0000, 0x01FF, 0b000000, [(0x4006, 0xFE)], 0xFF, 0x00, 0x0000, 0x01FF, 0b001000, 0x1003, [(0x4006, 0xFE)]⟩,
      ⟨[0xCA, 0x00], 0x00, 0x00, 0x0000, 0x01FF, 0b000000, [], 0x00, 0x00, 0x0000, 0x01FF, 0b000100, 0x1002, []⟩,
      ⟨[0xDA, 0x10], 0x00, 0x40, 0x0000, 0x01FF, 0b000000, [(0x0010, 0x80)], 0x00, 0xC0, 0x0000, 0x01FF, 0b001000, 0x1002, [(0x0010, 0x80)]⟩,
      ⟨[0xEA, 0x7F], 0x00, 0x11, 0x0001, 0x01FF, 0b000000, [(0x0080, 0x22)], 0x00, 0x33, 0x0001, 0x01FF, 0b000000, 0x1002, [(0x0080, 0x22)]⟩,
      ⟨[0xFA, 0x00, 0x10], 0x00, 0xF0, 0x0000, 0x01FF, 0b000000, [(0x0010, 0x0F)], 0x00, 0xFF, 0x0000, 0x01FF, 0b001000, 0x1003, [(0x0010, 0x0F)]⟩].all Vec.passes = true := by decide

theorem test_bit :
    [⟨[0x85, 0x81], 0xFF, 0x00, 0x0000, 0x01FF, 0b000011, [], 0xFF, 0x00, 0x0000, 0x01FF, 0b001001, 0x1002, []⟩,
      ⟨[0x95, 0x20], 0x7F, 0x00, 0x0000, 0x01FF, 0b000000, [(0x0020, 0x80)], 0x7F, 0x00, 0x0000, 0x01FF, 0b000100, 0x1002, [(0x0020, 0x80)]⟩,
      ⟨[0xA5, 0x01], 0x01, 0x00, 0x4004, 0x01FF, 0b000000, [(0x4005, 0x81)], 0x01, 0x00, 0x4004, 0x01FF, 0b000000, 0x1002, [(0x4005, 0x81)]⟩,
      ⟨[0xB5, 0x40, 0x05], 0x80, 0x00, 0x0000, 0x01FF, 0b000000, [(0x4005, 0x80)], 0x80, 0x00, 0x0000, 0x01FF, 0b001000, 0x1003, [(0x4005, 0x80)]⟩,
      ⟨[0xC5, 0xF8], 0x00, 0x07, 0x0000, 0x01FF, 0b000000, [], 0x00, 0x07, 0x0000, 0x01FF, 0b000100, 0x1002, []⟩,
      ⟨[0xD5, 0x30], 0x00, 0xFF, 0x0000, 0x01FF, 0b000000, [(0x0030, 0x00)], 0x00, 0xFF, 0x0000, 0x01FF, 0b000100, 0x1002, [(0x0030, 0x00)]⟩,
      ⟨[0xE5, 0x00], 0x00, 0x40, 0x8008, 0x01FF, 0b000000, [(0x8008, 0x40)], 0x00, 0x40, 0x8008, 0x01FF, 0b000000, 0x1002, [(0x8008, 0x40)]⟩,
      ⟨[0xF5, 0x80, 0x08], 0x00, 0x02, 0x0000, 0x01FF, 0b000000, [(0x8008, 0x0D)], 0x00, 0x02, 0x0000, 0x01FF, 0b000100, 0x1003, [(0x8008, 0x0D)]⟩].all Vec.passes = true := by decide

theorem test_com :
    [⟨[0x63, 0x00], 0x00, 0x00, 0x0040, 0x01FF, 0b000010, [(0x0040, 0x00)], 0x00, 0x00, 0x0040, 0x01FF, 0b001001, 0x1002, [(0x0040, 0xFF)]⟩,
      ⟨[0x73, 0x40, 0x06], 0x00, 0x00, 0x0000, 0x01FF, 0b000000, [(0x4006, 0xFF)], 0x00, 0x00, 0x0000, 0x01FF, 0b000101, 0x1003, [(0x4006, 0x00)]⟩,
      ⟨[0x43], 0x7F, 0x00, 0x0000, 0x01FF, 0b000000, [], 0x80, 0x00, 0x0000, 0x01FF, 0b001001, 0x1001, []⟩,
      ⟨[0x43], 0xFF, 0x00, 0x0000, 0x01FF, 0b000000, [], 0x00, 0x00, 0x0000, 0x01FF, 0b000101, 0x1001, []⟩,
      ⟨[0x53], 0x00, 0x00, 0x0000, 0x01FF, 0b100000, [], 0x00, 0xFF, 0x0000, 0x01FF, 0b101001, 0x1001, []⟩].all Vec.passes = true := by decide

theorem test_cmp :
    [⟨[0x81, 0x87], 0x65, 0x00, 0x0000, 0x01FF, 0b000000, [], 0x65, 0x00, 0x0000, 0x01FF, 0b001011, 0x1002, []⟩,
      ⟨[0x91, 0xF9], 0x05, 0x00, 0x0000, 0x01FF, 0b000000, [(0x00F9, 0x03)], 0x05, 0x00, 0x0000, 0x01FF, 0b000000, 0x1002, [(0x00F9, 0x03)]⟩,
      ⟨[0xA1, 0x00], 0x80, 0x00, 0x0200, 0x01FF, 0b000000, [(0x0200, 0x01)], 0x80, 0x00, 0x0200, 0x01FF, 0b000010, 0x1002, [(0x0200, 0x01)]⟩,
      ⟨[0xB1, 0x02, 0x00], 0x7F, 0x00, 0x0000, 0x01FF, 0b000000, [(0x0200, 0xFF)], 0x7F, 0x00, 0x0000, 0x01FF, 0b001011, 0x1003, [(0x0200, 0xFF)]⟩,
      ⟨[0xC1, 0x10], 0x00, 0x09, 0x0000, 0x01FF, 0b000000, [], 0x00, 0x09, 0x0000, 0x01FF, 0b001001, 0x1002, []⟩,
      ⟨[0xD1, 0x20], 0x00, 0x00, 0x0000, 0x01FF, 0b000000, [(0x0020, 0x80)], 0x00, 0x00, 0x0000, 0x01FF, 0b001011, 0x1002, [(0x0020, 0x80)]⟩,
      ⟨[0xE1, 0x01], 0x00, 0xFF, 0x0100, 0x01FF, 0b000000, [(0x0101, 0xFE)], 0x00, 0xFF, 0x0100, 0x01FF, 0b000000, 0x1002, [(0x0101, 0xFE)]⟩,
      ⟨[0xF1, 0x01, 0x01], 0x00, 0x01, 0x0000, 0x01FF, 0b000000, [(0x0101, 0x02)], 0x00, 0x01, 0x0000, 0x01FF, 0b001001, 0x1003, [(0x0101, 0x02)]⟩].all Vec.passes = true := by decide

theorem test_cba :
    [⟨[0x11], 0x40, 0x40, 0x0000, 0x01FF, 0b100001, [], 0x40, 0x40, 0x0000, 0x01FF, 0b100100, 0x1001, []⟩,
      ⟨[0x11], 0x80, 0x7F, 0x0000, 0x01FF, 0b000000, [], 0x80, 0x7F, 0x0000, 0x01FF, 0b000010, 0x1001, []⟩].all Vec.passes = true := by decide

theorem test_tst :
    [⟨[0x6D, 0x00], 0x00, 0x00, 0x0040, 0x01FF, 0b000011, [(0x0040, 0x00)], 0x00, 0x00, 0x0040, 0x01FF, 0b000100, 0x1002, [(0x0040, 0x00)]⟩,
      ⟨[0x7D, 0x00, 0x82], 0x00, 0x00, 0x0000, 0x01FF, 0b000001, [(0x0082, 0x7F)], 0x00, 0x00, 0x0000, 0x01FF, 0b000000, 0x1003, [(0x0082, 0x7F)]⟩,
      ⟨[0x4D], 0xF1, 0x00, 0x0000, 0x01FF, 0b000011, [], 0xF1, 0x00, 0x0000, 0x01FF, 0b001000, 0x1001, []⟩,
      ⟨[0x4D], 0x00, 0x00, 0x0000, 0x01FF, 0b100011, [], 0x00, 0x00, 0x0000, 0x01FF, 0b100100, 0x1001, []⟩,
      ⟨[0x5D], 0x00, 0x01, 0x0000, 0x01FF, 0b000011, [], 0x00, 0x01, 0x0000, 0x01FF, 0b000000, 0x1001, []⟩].all Vec.passes = true := by decide

theorem test_clr :
    [⟨[0x6F, 0x00], 0x00, 0x00, 0x0080, 0x01FF, 0b101011, [(0x0080, 0x5A)], 0x00, 0x00, 0x0080, 0x01FF, 0b100100, 0x1002, [(0x0080, 0x00)]⟩,
      ⟨[0x7F, 0x00, 0x88], 0x00, 0x00, 0x0000, 0x01FF, 0b010011, [(0x0088, 0xFF)], 0x00, 0x00, 0x0000, 0x01FF, 0b010100, 0x1003, [(0x0088, 0x00)]⟩,
      ⟨[0x4F], 0x9C, 0x00, 0x0000, 0x01FF, 0b001011, [], 0x00, 0x00, 0x0000, 0x01FF, 0b000100, 0x1001, []⟩,
      ⟨[0x5F], 0x00, 0x00, 0x0000, 0x01FF, 0b000000, [], 0x00, 0x00, 0x0000, 0x01FF, 0b000100, 0x1001, []⟩].all Vec.passes = true := by decide

theorem test_dec :
    [⟨[0x6A, 0x00], 0x00, 0x00, 0x0010, 0x01FF, 0b000001, [(0x0010, 0x80)], 0x00, 0x00, 0x0010, 0x01FF, 0b000011, 0x1002, [(0x0010, 0x7F)]⟩,
      ⟨[0x7A, 0x00, 0xF7], 0x00, 0x00, 0x0000, 0x01FF, 0b000000, [(0x00F7, 0x00)], 0x00, 0x00, 0x0000, 0x01FF, 0b001000, 0x1003, [(0x00F7, 0xFF)]⟩,
      ⟨[0x4A], 0x81, 0x00, 0x0000, 0x01FF, 0b000001, [], 0x80, 0x00, 0x0000, 0x01FF, 0b001001, 0x1001, []⟩,
      ⟨[0x5A], 0x00, 0x01, 0x0000, 0x01FF, 0b000000, [], 0x00, 0x00, 0x0000, 0x01FF, 0b000100, 0x1001, []⟩,
      ⟨[0x5A], 0x00, 0x00, 0x0000, 0x01FF, 0b000001, [], 0x00, 0xFF, 0x0000, 0x01FF, 0b001001, 0x1001, []⟩].all Vec.passes = true := by decide

theorem test_inc :
    [⟨[0x6C, 0x01], 0x00, 0x00, 0x00FF, 0x01FF, 0b000000, [(0x0100, 0x7F)], 0x00, 0x00, 0x00FF, 0x01FF, 0b001010, 0x1002, [(0x0100, 0x80)]⟩,
      ⟨[0x7C, 0x01, 0x00], 0x00, 0x00, 0x0000, 0x01FF, 0b000001, [(0x0100, 0xFF)], 0x00, 0x00, 0x0000, 0x01FF, 0b000101, 0x1003, [(0x0100, 0x00)]⟩,
      ⟨[0x4C], 0x7F, 0x00, 0x0000, 0x01FF, 0b000000, [], 0x80, 0x00, 0x0000, 0x01FF, 0b001010, 0x1001, []⟩,
      ⟨[0x4C], 0xFF, 0x00, 0x0000, 0x01FF, 0b000001, [], 0x00, 0x00, 0x0000, 0x01FF, 0b000101, 0x1001, []⟩,
      ⟨[0x5C], 0x00, 0xF8, 0x0000, 0x01FF, 0b000000, [], 0x00, 0xF9, 0x0000, 0x01FF, 0b001000, 0x1001, []⟩].all Vec.passes = true := by decide

theorem test_lda :
    [⟨[0x86, 0x00], 0x55, 0x00, 0x0000, 0x01FF, 0b100011, [], 0x00, 0x00, 0x0000, 0x01FF, 0b100101, 0x1002, []⟩,
      ⟨[0x96, 0x81], 0x00, 0x00, 0x0000, 0x01FF, 0b000000, [(0x0081, 0x7F)], 0x7F, 0x00, 0x0000, 0x01FF, 0b000000, 0x1002, [(0x0081, 0x7F)]⟩,
      ⟨[0xA6, 0x07], 0x00, 0x00, 0x0102, 0x01FF, 0b000000, [(0x0109, 0x31)], 0x31, 0x00, 0x0102, 0x01FF, 0b000000, 0x1002, [(0x0109, 0x31)]⟩,
      ⟨[0xB6, 0x40, 0x04], 0x00, 0x00, 0x0000, 0x01FF, 0b000000, [(0x4004, 0xC3)], 0xC3, 0x00, 0x0000, 0x01FF, 0b001000, 0x1003, [(0x4004, 0xC3)]⟩,
      ⟨[0xC6, 0x08], 0x00, 0x00, 0x0000, 0x01FF, 0b000000, [], 0x00, 0x08, 0x0000, 0x01FF, 0b000000, 0x1002, []⟩,
      ⟨[0xD6, 0xFE], 0x00, 0x00, 0x0000, 0x01FF, 0b000000, [(0x00FE, 0x00)], 0x00, 0x00, 0x0000, 0x01FF, 0b000100, 0x1002, [(0x00FE, 0x00)]⟩,
      ⟨[0xE6, 0xE1], 0x00, 0x00, 0x0003, 0x01FF, 0b000000, [(0x00E4, 0x99)], 0x00, 0x99, 0x0003, 0x01FF, 0b001000, 0x1002, [(0x00E4, 0x99)]⟩,
      ⟨[0xF6, 0xFF, 0xFF], 0x00, 0x00, 0x0000, 0x01FF, 0b000000, [(0xFFFF, 0xFF)], 0x00, 0xFF, 0x0000, 0x01FF, 0b001000, 0x1003, [(0xFFFF, 0xFF)]⟩].all Vec.passes = true := by decide

theorem test_sta :
    [⟨[0x97, 0x85], 0x00, 0x00, 0x0000, 0x01FF, 0b001011, [], 0x00, 0x00, 0x0000, 0x01FF, 0b000101, 0x1002, [(0x0085, 0x00)]⟩,
      ⟨[0xA7, 0x17], 0x83, 0x00, 0x0102, 0x01FF, 0b000001, [], 0x83, 0x00, 0x0102, 0x01FF, 0b001001, 0x1002, [(0x0119, 0x83)]⟩,
      ⟨[0xB7, 0x40, 0x05], 0x2F, 0x00, 0x0000, 0x01FF, 0b000000, [], 0x2F, 0x00, 0x0000, 0x01FF, 0b000000, 0x1003, [(0x4005, 0x2F)]⟩,
      ⟨[0xD7, 0xFE], 0x00, 0x80, 0x0000, 0x01FF, 0b000110, [], 0x00, 0x80, 0x0000, 0x01FF, 0b001000, 0x1002, [(0x00FE, 0x80)]⟩,
      ⟨[0xE7, 0xE8], 0x00, 0x09, 0x0008, 0x01FF, 0b000000, [], 0x00, 0x09, 0x0008, 0x01FF, 0b000000, 0x1002, [(0x00F0, 0x09)]⟩,
      ⟨[0xF7, 0x82, 0x01], 0x00, 0x00, 0x0000, 0x01FF, 0b000000, [], 0x00, 0x00, 0x0000, 0x01FF, 0b000100, 0x1003, [(0x8201, 0x00)]⟩].all Vec.passes = true := by decide

theorem test_tab :
    [⟨[0x16], 0x80, 0x11, 0x0000, 0x01FF, 0b000011, [], 0x80, 0x80, 0x0000, 0x01FF, 0b001001, 0x1001, []⟩,
      ⟨[0x16], 0x00, 0x11, 0x0000, 0x01FF, 0b001010, [], 0x00, 0x00, 0x0000, 0x01FF, 0b000100, 0x1001, []⟩].all Vec.passes = true := by decide

theorem test_tba :
    [⟨[0x17], 0x11, 0x7F, 0x0000, 0x01FF, 0b001110, [], 0x7F, 0x7F, 0x0000, 0x01FF, 0b000000, 0x1001, []⟩].all Vec.passes = true := by decide

theorem test_psh :
    [⟨[0x36], 0x1A, 0x00, 0x0000, 0x01FF, 0b111111, [], 0x1A, 0x00, 0x0000, 0x01FE, 0b111111, 0x1001, [(0x01FF, 0x1A)]⟩,
      ⟨[0x37], 0x00, 0xB2, 0x0000, 0x0000, 0b000000, [], 0x00, 0xB2, 0x0000, 0xFFFF, 0b000000, 0x1001, [(0x0000, 0xB2)]⟩].all Vec.passes = true := by decide

theorem test_pul :
    [⟨[0x32], 0x00, 0x00, 0x0000, 0x01FE, 0b001111, [(0x01FF, 0x00)], 0x00, 0x00, 0x0000, 0x01FF, 0b001111, 0x1001, [(0x01FF, 0x00)]⟩,
      ⟨[0x33], 0x00, 0x00, 0x0000, 0xFFFF, 0b000000, [(0x0000, 0x80)], 0x00, 0x80, 0x0000, 0x0000, 0b000000, 0x1001, [(0x0000, 0x80)]⟩].all Vec.passes = true := by decide

theorem test_rol :
    [⟨[0x69, 0x00], 0x00, 0x00, 0x0088, 0x01FF, 0b000001, [(0x0088, 0x80)], 0x00, 0x00, 0x0088, 0x01FF, 0b000011, 0x1002, [(0x0088, 0x01)]⟩,
      ⟨[0x79, 0x00, 0xFD], 0x00, 0x00, 0x0000, 0x01FF, 0b000000, [(0x00FD, 0x55)], 0x00, 0x00, 0x0000, 0x01FF, 0b001010, 0x1003, [(0x00FD, 0xAA)]⟩,
      ⟨[0x49], 0x40, 0x00, 0x0000, 0x01FF, 0b000001, [], 0x81, 0x00, 0x0000, 0x01FF, 0b001010, 0x1001, []⟩,
      ⟨[0x59], 0x00, 0x80, 0x0000, 0x01FF, 0b000000, [], 0x00, 0x00, 0x0000, 0x01FF, 0b000111, 0x1001, []⟩].all Vec.passes = true := by decide

theorem test_ror :
    [⟨[0x66, 0x00], 0x00, 0x00, 0x0080, 0x01FF, 0b000001, [(0x0080, 0x01)], 0x00, 0x00, 0x0080, 0x01FF, 0b001001, 0x1002, [(0x0080, 0x80)]⟩,
      ⟨[0x76, 0x00, 0x80], 0x00, 0x00, 0x0000, 0x01FF, 0b000000, [(0x0080, 0x01)], 0x00, 0x00, 0x0000, 0x01FF, 0b000111, 0x1003, [(0x0080, 0x00)]⟩,
      ⟨[0x46], 0x00, 0x00, 0x0000, 0x01FF, 0b000001, [], 0x80, 0x00, 0x0000, 0x01FF, 0b001010, 0x1001, []⟩,
      ⟨[0x56], 0x00, 0xFE, 0x0000, 0x01FF, 0b000000, [], 0x00, 0x7F, 0x0000, 0x01FF, 0b000000, 0x1001, []⟩].all Vec.passes = true := by decide

theorem test_asl :
    [⟨[0x68, 0x02], 0x00, 0x00, 0x00F7, 0x01FF, 0b000000, [(0x00F9, 0xC0)], 0x00, 0x00, 0x00F7, 0x01FF, 0b001001, 0x1002, [(0x00F9, 0x80)]⟩,
      ⟨[0x78, 0x00, 0xF9], 0x00, 0x00, 0x0000, 0x01FF, 0b000001, [(0x00F9, 0x03)], 0x00, 0x00, 0x0000, 0x01FF, 0b000000, 0x1003, [(0x00F9, 0x06)]⟩,
      ⟨[0x48], 0x40, 0x00, 0x0000, 0x01FF, 0b000000, [], 0x80, 0x00, 0x0000, 0x01FF, 0b001010, 0x1001, []⟩,
      ⟨[0x58], 0x00, 0x80, 0x0000, 0x01FF, 0b000000, [], 0x00, 0x00, 0x0000, 0x01FF, 0b000111, 0x1001, []⟩].all Vec.passes = true := by decide

theorem test_asr :
    [⟨[0x67, 0x00], 0x00, 0x00, 0x0084, 0x01FF, 0b000000, [(0x0084, 0x81)], 0x00, 0x00, 0x0084, 0x01FF, 0b001001, 0x1002, [(0x0084, 0xC0)]⟩,
      ⟨[0x77, 0x00, 0x84], 0x00, 0x00, 0x0000, 0x01FF, 0b000000, [(0x0084, 0x01)], 0x00, 0x00, 0x0000, 0x01FF, 0b000111, 0x1003, [(0x0084, 0x00)]⟩,
      ⟨[0x47], 0xFF, 0x00, 0x0000, 0x01FF, 0b000000, [], 0xFF, 0x00, 0x0000, 0x01FF, 0b001001, 0x1001, []⟩,
      ⟨[0x57], 0x00, 0x7E, 0x0000, 0x01FF, 0b000000, [], 0x00, 0x3F, 0x0000, 0x01FF, 0b000000, 0x1001, []⟩].all Vec.passes = true := by decide

theorem test_lsr :
    [⟨[0x64, 0x00], 0x00, 0x00, 0x0010, 0x01FF, 0b000000, [(0x0010, 0x01)], 0x00, 0x00, 0x0010, 0x01FF, 0b000111, 0x1002, [(0x0010, 0x00)]⟩,
      ⟨[0x74, 0x00, 0x10], 0x00, 0x00, 0x0000, 0x01FF, 0b001000, [(0x0010, 0x80)], 0x00, 0x00, 0x0000, 0x01FF, 0b000000, 0x1003, [(0x0010, 0x40)]⟩,
      ⟨[0x44], 0xFF, 0x00, 0x0000, 0x01FF, 0b000000, [], 0x7F, 0x00, 0x0000, 0x01FF, 0b000011, 0x1001, []⟩,
      ⟨[0x54], 0x00, 0x00, 0x0000, 0x01FF, 0b000001, [], 0x00, 0x00, 0x0000, 0x01FF, 0b000100, 0x1001, []⟩].all Vec.passes = true := by decide

theorem test_cpx :
    [⟨[0x8C, 0x12, 0x34], 0x00, 0x00, 0x1234, 0x01FF, 0b100011, [], 0x00, 0x00, 0x1234, 0x01FF, 0b100101, 0x1003, []⟩,
      ⟨[0x9C, 0x40], 0x00, 0x00, 0x0113, 0x01FF, 0b000000, [(0x0040, 0x01), (0x0041, 0x13)], 0x00, 0x00, 0x0113, 0x01FF, 0b000100, 0x1002, [(0x0040, 0x01), (0x0041, 0x13)]⟩,
      ⟨[0xAC, 0x02], 0x00, 0x00, 0x0100, 0x01FF, 0b000000, [(0x0102, 0x01), (0x0103, 0x00)], 0x00, 0x00, 0x0100, 0x01FF, 0b000100, 0x1002, [(0x0102, 0x01), (0x0103, 0x00)]⟩,
      ⟨[0xBC, 0x01, 0x00], 0x00, 0x00, 0x7FFF, 0x01FF, 0b000000, [(0x0100, 0x80), (0x0101, 0x00)], 0x00, 0x00, 0x7FFF, 0x01FF, 0b001000, 0x1003, [(0x0100, 0x80), (0x0101, 0x00)]⟩].all Vec.passes = true := by decide

theorem test_dex :
    [⟨[0x09], 0x00, 0x00, 0x0001, 0x01FF, 0b001011, [], 0x00, 0x00, 0x0000, 0x01FF, 0b001111, 0x1001, []⟩,
      ⟨[0x09], 0x00, 0x00, 0x0000, 0x01FF, 0b000100, [], 0x00, 0x00, 0xFFFF, 0x01FF, 0b000000, 0x1001, []⟩].all Vec.passes = true := by decide

theorem test_inx :
    [⟨[0x08], 0x00, 0x00, 0xFFFF, 0x01FF, 0b001011, [], 0x00, 0x00, 0x0000, 0x01FF, 0b001111, 0x1001, []⟩,
      ⟨[0x08], 0x00, 0x00, 0x7FFF, 0x01FF, 0b000000, [], 0x00, 0x00, 0x8000, 0x01FF, 0b000000, 0x1001, []⟩].all Vec.passes = true := by decide

theorem test_des :
    [⟨[0x34], 0x00, 0x00, 0x0000, 0x0000, 0b000100, [], 0x00, 0x00, 0x0000, 0xFFFF, 0b000100, 0x1001, []⟩].all Vec.passes = true := by decide

theorem test_ins :
    [⟨[0x31], 0x00, 0x00, 0x0000, 0xFFFF, 0b000000, [], 0x00, 0x00, 0x0000, 0x0000, 0b000000, 0x1001, []⟩].all Vec.passes = true := by decide

theorem test_ldx :
    [⟨[0xCE, 0x00, 0x00], 0x00, 0x00, 0x1234, 0x01FF, 0b001011, [], 0x00, 0x00, 0x0000, 0x01FF, 0b000101, 0x1003, []⟩,
      ⟨[0xDE, 0xF6], 0x00, 0x00, 0x0000, 0x01FF, 0b000000, [(0x00F6, 0x00), (0x00F7, 0x08)], 0x00, 0x00, 0x0008, 0x01FF, 0b000000, 0x1002, [(0x00F6, 0x00), (0x00F7, 0x08)]⟩,
      ⟨[0xEE, 0x00], 0x00, 0x00, 0x0040, 0x01FF, 0b000000, [(0x0040, 0xBE), (0x0041, 0xEF)], 0x00, 0x00, 0xBEEF, 0x01FF, 0b001000, 0x1002, [(0x0040, 0xBE), (0x0041, 0xEF)]⟩,
      ⟨[0xFE, 0x01, 0x00], 0x00, 0x00, 0x0000, 0x01FF, 0b000000, [(0x0100, 0x01), (0x0101, 0x02)], 0x00, 0x00, 0x0102, 0x01FF, 0b000000, 0x1003, [(0x0100, 0x01), (0x0101, 0x02)]⟩].all Vec.passes = true := by decide

theorem test_lds :
    [⟨[0x8E, 0x01, 0x3F], 0x00, 0x00, 0x0000, 0x0000, 0b000000, [], 0x00, 0x00, 0x0000, 0x013F, 0b000000, 0x1003, []⟩,
      ⟨[0x9E, 0x07], 0x00, 0x00, 0x0000, 0x01FF, 0b000000, [(0x0007, 0x00), (0x0008, 0x00)], 0x00, 0x00, 0x0000, 0x0000, 0b000100, 0x1002, [(0x0007, 0x00), (0x0008, 0x00)]⟩,
      ⟨[0xAE, 0x02], 0x00, 0x00, 0x0020, 0x01FF, 0b000000, [(0x0022, 0xA0), (0x0023, 0x7F)], 0x00, 0x00, 0x0020, 0xA07F, 0b001000, 0x1002, [(0x0022, 0xA0), (0x0023, 0x7F)]⟩,
      ⟨[0xBE, 0x00, 0x09], 0x00, 0x00, 0x0000, 0x01FF, 0b000000, [(0x0009, 0x00), (0x000A, 0x7F)], 0x00, 0x00, 0x0000, 0x007F, 0b000000, 0x1003, [(0x0009, 0x00), (0x000A, 0x7F)]⟩].all Vec.passes = true := by decide

theorem test_stx :
    [⟨[0xDF, 0xF2], 0x00, 0x00, 0x0003, 0x01FF, 0b001110, [], 0x00, 0x00, 0x0003, 0x01FF, 0b000000, 0x1002, [(0x00F2, 0x00), (0x00F3, 0x03)]⟩,
      ⟨[0xEF, 0x00], 0x00, 0x00, 0x8000, 0x01FF, 0b000000, [], 0x00, 0x00, 0x8000, 0x01FF, 0b001000, 0x1002, [(0x8000, 0x80), (0x8001, 0x00)]⟩,
      ⟨[0xFF, 0x01, 0x00], 0x00, 0x00, 0x0000, 0x01FF, 0b001010, [], 0x00, 0x00, 0x0000, 0x01FF, 0b000100, 0x1003, [(0x0100, 0x00), (0x0101, 0x00)]⟩].all Vec.passes = true := by decide

theorem test_sts :
    [⟨[0x9F, 0x09], 0x00, 0x00, 0x0000, 0x013D, 0b000000, [], 0x00, 0x00, 0x0000, 0x013D, 0b000000, 0x1002, [(0x0009, 0x01), (0x000A, 0x3D)]⟩,
      ⟨[0xAF, 0xFF], 0x00, 0x00, 0xFF01, 0xFFFF, 0b000000, [], 0x00, 0x00, 0xFF01, 0xFFFF, 0b001000, 0x1002, [(0x0000, 0xFF), (0x0001, 0xFF)]⟩,
      ⟨[0xBF, 0x00, 0x7E], 0x00, 0x00, 0x0000, 0x0000, 0b000000, [], 0x00, 0x00, 0x0000, 0x0000, 0b000100, 0x1003, [(0x007E, 0x00), (0x007F, 0x00)]⟩].all Vec.passes = true := by decide

theorem test_txs :
    [⟨[0x35], 0x00, 0x00, 0x0200, 0x0000, 0b001111, [], 0x00, 0x00, 0x0200, 0x01FF, 0b001111, 0x1001, []⟩,
      ⟨[0x35], 0x00, 0x00, 0x0000, 0x1234, 0b000000, [], 0x00, 0x00, 0x0000, 0xFFFF, 0b000000, 0x1001, []⟩].all Vec.passes = true := by decide

theorem test_tsx :
    [⟨[0x30], 0x00, 0x00, 0x0000, 0x01F8, 0b001111, [], 0x00, 0x00, 0x01F9, 0x01F8, 0b001111, 0x1001, []⟩,
      ⟨[0x30], 0x00, 0x00, 0x1234, 0xFFFF, 0b000000, [], 0x00, 0x00, 0x0000, 0xFFFF, 0b000000, 0x1001, []⟩].all Vec.passes = true := by decide

theorem test_jmp :
    [⟨[0x7E, 0xC0, 0x00], 0x00, 0x00, 0x0000, 0x01FF, 0b111111, [], 0x00, 0x00, 0x0000, 0x01FF, 0b111111, 0xC000, []⟩,
      ⟨[0x6E, 0x05], 0x00, 0x00, 0x0400, 0x01FF, 0b000000, [], 0x00, 0x00, 0x0400, 0x01FF, 0b000000, 0x0405, []⟩].all Vec.passes = true := by decide

theorem test_jsr :
    [⟨[0xBD, 0x10, 0x80], 0x00, 0x00, 0x0000, 0x013F, 0b000000, [], 0x00, 0x00, 0x0000, 0x013D, 0b000000, 0x1080, [(0x013F, 0x03), (0x013E, 0x10)]⟩,
      ⟨[0xAD, 0x00], 0x00, 0x00, 0xBB00, 0x01FF, 0b000000, [], 0x00, 0x00, 0xBB00, 0x01FD, 0b000000, 0xBB00, [(0x01FF, 0x02), (0x01FE, 0x10)]⟩].all Vec.passes = true := by decide

theorem test_bsr :
    [⟨[0x8D, 0x10], 0x00, 0x00, 0x0000, 0x01FF, 0b000000, [], 0x00, 0x00, 0x0000, 0x01FD, 0b000000, 0x1012, [(0x01FF, 0x02), (0x01FE, 0x10)]⟩].all Vec.passes = true := by decide

theorem test_rts :
    [⟨[0x39], 0x00, 0x00, 0x0000, 0x013D, 0b000000, [(0x013E, 0x11), (0x013F, 0x0C)], 0x00, 0x00, 0x0000, 0x013F, 0b000000, 0x110C, [(0x013E, 0x11), (0x013F, 0x0C)]⟩,
      ⟨[0x39], 0x00, 0x00, 0x0000, 0xFFFE, 0b000000, [(0x0000, 0x34), (0xFFFF, 0x12)], 0x00, 0x00, 0x0000, 0x0000, 0b000000, 0x1234, [(0x0000, 0x34), (0xFFFF, 0x12)]⟩].all Vec.passes = true := by decide

theorem test_nop :
    [⟨[0x01], 0x00, 0x00, 0x0000, 0x01FF, 0b101010, [], 0x00, 0x00, 0x0000, 0x01FF, 0b101010, 0x1001, []⟩].all Vec.passes = true := by decide

/-- Table V6.1: rows N Z V C = 0000 to 1111, columns BRA, BHI, BLS, BCC, BCS, BNE, BEQ, BVC, BVS, BPL, BMI, BGE, BLT,
BGT, BLE; a bit is 1 where the branch is taken. -/
def branchTable : List (BitVec 15) :=
  [0b110101010101010, 0b101011010101010, 0b110101001100101, 0b101011001100101,
   0b101100110101001, 0b101010110101001, 0b101100101100101, 0b101010101100101,
   0b110101010010101, 0b101011010010101, 0b110101001011010, 0b101011001011010,
   0b101100110010101, 0b101010110010101, 0b101100101011001, 0b101010101011001]

/-- Where a branch with offset 10 at 1000 goes, with flags NZVC. -/
def branchesTo (b : Byte → Instr) (nzvc : Nat) : Bool :=
  match exec (b 0x10) (onFlat 0 0 0 0 (BitVec.ofNat 6 nzvc) []) with
  | .next t => t.cpu.pc == 0x1012
  | .fault _ => false
  | .refused _ => false

def branchRow (nzvc : Nat) : List Bool :=
  [Instr.bra, .bhi, .bls, .bcc, .bcs, .bne, .beq, .bvc, .bvs, .bpl, .bmi, .bge, .blt, .bgt, .ble].map (branchesTo · nzvc)

theorem test_branches :
    ((List.range 16).map branchRow) = branchTable.map fun r => (List.range 15).map fun k => r.getLsbD (14 - k) := by
  decide

/-- V6.2: the ends of the range, a branch to itself, and the wraps past FFFF and below 0000. -/
theorem test_branch_targets :
    [((0x1000 : Word), (0x7F : Byte), (0x1081 : Word)), (0x1000, 0x80, 0x0F82), (0x1000, 0xFE, 0x1000),
      (0xFFF0, 0x20, 0x0012), (0x0010, 0x80, 0xFF92), (0xFFFE, 0x00, 0x0000)].all (fun p =>
        (({ State.reset with cpu := { State.reset.cpu with pc := p.1 } }.advance 0x20 2).branch .always p.2.1).cpu.pc
          == p.2.2) = true := by decide

/-- V2.4: A, H, C before DAA, then A, N, Z, C after it (V is a free value). -/
def daaRow (a : Byte) (h c : Bool) (a' : Byte) (n' z' c' : Bool) : Bool :=
  let s := onFlat a 0 0 0 0 []
  match exec .daa { s with cpu := { s.cpu with ccr := { s.cpu.ccr with h := h, c := c } } } with
  | .next t => t.cpu.a == a' && t.cpu.ccr.n == n' && t.cpu.ccr.z == z' && t.cpu.ccr.c == c' && t.cpu.ccr.h == h
  | .fault _ => false
  | .refused _ => false

theorem test_daa :
    (daaRow 0x45 false false 0x45 false false false && daaRow 0x8F false false 0x95 true false false &&
      daaRow 0x10 true false 0x16 false false false && daaRow 0xA0 false false 0x00 false true true &&
      daaRow 0x9A false false 0x00 false true true && daaRow 0xF3 true false 0x59 false false true &&
      daaRow 0x29 false true 0x89 true false true && daaRow 0x0A false true 0x70 false false true &&
      daaRow 0x33 true true 0x99 true false true) = true := by decide

/-! ### Interrupts: scenarios of V7, one step each -/

/-- The vectors of V7: IRQ 2000, SWI 3000, NMI 4000, RES 1000. -/
def vectorBytes : Word × List Byte := (0xFFF8, [0x20, 0x00, 0x30, 0x00, 0x40, 0x00, 0x10, 0x00])

/-- A machine of V7 at 1000. -/
def atBoundary (a b : Byte) (x : Word) (flags : BitVec 6) (code : List Byte) : State :=
  onFlat a b x 0x01FF flags [vectorBytes, (0x1000, code)]

def withIrqLow (s : State) : State := { s with env := { s.env with irqExt := true } }

def withNmi (s : State) : State := { s with sys := { s.sys with nmiLatch := true } }

def inState (r : RunState) (s : State) : State := { s with ctl := { s.ctl with runState := r } }

/-- A step answers a state with a property. -/
def gives (o : Host.Outcome State Fault Refusal) (p : State → Bool) : Bool :=
  match o with
  | .next t => p t
  | .fault _ => false
  | .refused _ => false

def bytesAt (t : State) (a : Word) (l : List Byte) : Bool :=
  match l with
  | [] => true
  | v :: rest => t.sys.cell a == some v && bytesAt t (a + 1) rest

/-- V7.1, step 1: the frame and the vector of SWI. -/
theorem test_swi :
    gives (step (atBoundary 0x12 0x34 0x5678 0b101010 [0x3F])) (fun t =>
      t.cpu.pc == 0x3000 && t.cpu.sp == 0x01F8 && t.cpu.ccr.toByte == 0xFA &&
        bytesAt t 0x01F9 [0xEA, 0x34, 0x12, 0x56, 0x78, 0x10, 0x01]) = true := by decide

/-- V7.11: an NMI edge during SWI takes the vector at FFF8 and is consumed. -/
theorem test_swi_nmi :
    gives (step { atBoundary 0 0 0 0 [0x3F] with
                  env := { State.reset.env with schedule := [[.nmiDuring]] } }) (fun t =>
      t.cpu.pc == 0x2000 && t.cpu.ccr.i && !t.sys.nmiLatch && bytesAt t 0x01FE [0x10, 0x01]) = true := by decide

/-- R374, R433: the first byte SWI pushes, 01, enables the set flag of a PIA wired to NMI; the vector at FFF8 is taken and
the NMI consumed. -/
theorem test_swi_pushes_nmi :
    gives (exec .swi { State.reset with
        cpu := { State.reset.cpu with sp := 0x4007 }
        sys := { System.initial with
          rom := [(0xC3F8, 0x20), (0xC3FA, 0x30), (0xC3FC, 0x40)]
          pias := [{ Pia.initial with sideB := { PiaSide.initial 0 .nmi with irq1 := true } }] } })
      (fun t => t.cpu.pc == 0x2000 && !t.sys.nmiLatch && t.sys.pias.all (·.sideB.irqLow)) = true := by decide

/-- An instruction at 0000, and a cycle stolen after its opcode read that enables the set flag of a PIA wired to NMI. -/
def nmiStolen (opcode : Byte) : State :=
  { State.reset with
    cpu := { State.reset.cpu with sp := 0x007F }
    sys := { System.initial with
      ram := [(0, opcode)]
      rom := [(0xC3F8, 0x20), (0xC3FA, 0x30), (0xC3FC, 0x40)]
      pias := [{ Pia.initial with sideB := { PiaSide.initial 0 .nmi with irq1 := true } }]
      steals := [⟨1, .write 0x4007 0x01⟩] } }

/-- R332, R374: another master's write before SWI's second fetch read enables the set flag of a PIA wired to NMI: the vector
at FFF8 is taken and the NMI consumed.  During a NOP the same edge is latched. -/
theorem test_swi_fetch_nmi :
    (gives (step (nmiStolen 0x3F)) (fun t => t.cpu.pc == 0x2000 && !t.sys.nmiLatch && t.sys.pias.all (·.sideB.irqLow)) &&
      gives (step (nmiStolen 0x01)) (fun t => t.cpu.pc == 0x0001 && t.sys.nmiLatch)) = true := by decide

theorem witness_SoftwareInterrupt :
    decode (nmiStolen 0x3F).fetch.1 = .ok (.swi, [0x00]) ∧
      (nmiStolen 0x3F).clearNmi.fetchBytes.2.sys.nmiLatch = true := by decide

/-- R374 a: the same pushes in an IRQ sequence make it an NMI sequence. -/
theorem test_irq_pushes_nmi :
    gives (step (withIrqLow { State.reset with
        cpu := { State.reset.cpu with sp := 0x4007, pc := 0x0001, ccr := ccrOf 0 }
        sys := { System.initial with
          rom := [(0xC3F8, 0x20), (0xC3FA, 0x30), (0xC3FC, 0x40)]
          pias := [{ Pia.initial with sideB := { PiaSide.initial 0 .nmi with irq1 := true } }] } }))
      (fun t => t.cpu.pc == 0x4000 && !t.sys.nmiLatch) = true := by decide

/-- R542: a byte that another master writes between the read and the write of INC is lost; one written before the read is
incremented.  INC 0040 reads three instruction bytes and the operand before it writes. -/
theorem test_steal :
    let run := fun gap : Nat => step { atBoundary 0 0 0 0 [0x7C, 0x00, 0x40] with
      env := { State.reset.env with schedule := [[.steal ⟨gap, .write 0x0040 0x55⟩]] } }
    (gives (run 4) (fun t => bytesAt t 0x0040 [0x01] && t.sys.steals == []) &&
      gives (run 3) (fun t => bytesAt t 0x0040 [0x56])) = true := by decide

/-- V7.1, step 2: RTI. -/
theorem test_rti :
    gives (exec .rti (onFlat 0 0 0 0x01F8 0b111111 [(0x01F9, [0xEA, 0x34, 0x12, 0x56, 0x78, 0x10, 0x01])])) (fun t =>
      decide (t.cpu = { a := 0x12, b := 0x34, x := 0x5678, sp := 0x01FF, pc := 0x1001, ccr := ccrOf 0b101010 })) = true :=
  by decide

/-- V7.12, step 1: WAI stacks and waits, I unchanged. -/
theorem test_wai :
    gives (step (atBoundary 0x11 0x22 0x3344 0 [0x3E])) (fun t =>
      t.ctl.runState == .waiting && t.cpu.pc == 0x1001 && !t.cpu.ccr.i &&
        bytesAt t 0x01F9 [0xC0, 0x22, 0x11, 0x33, 0x44, 0x10, 0x01]) = true := by decide

/-- V7.12, step 4, and V7.13, steps 3 and 6: an IRQ ends the wait only while I = 0, an NMI always; nothing is stacked. -/
theorem test_wait_exit :
    (gives (step (withIrqLow (inState .waiting (atBoundary 0 0 0 0 [])))) (fun t =>
        t.cpu.pc == 0x2000 && t.cpu.sp == 0x01FF && t.cpu.ccr.i && t.ctl.runState == .running) &&
      gives (step (withIrqLow (inState .waiting (atBoundary 0 0 0 0b010000 [])))) (fun t =>
        t.cpu.pc == 0x1000 && t.ctl.runState == .waiting) &&
      gives (step (withNmi (inState .waiting (atBoundary 0 0 0 0b010000 [])))) (fun t =>
        t.cpu.pc == 0x4000 && !t.sys.nmiLatch && t.ctl.runState == .running)) = true := by decide

/-- V7.2 and V7.3: the IRQ sequence, and the masked IRQ. -/
theorem test_irq :
    (gives (step (withIrqLow (atBoundary 0xAA 0xBB 0x0102 0b000101 [0x01]))) (fun t =>
        t.cpu.pc == 0x2000 && t.cpu.ccr.toByte == 0xD5 &&
          bytesAt t 0x01F9 [0xC5, 0xBB, 0xAA, 0x01, 0x02, 0x10, 0x00]) &&
      gives (step (withIrqLow (atBoundary 0 0 0 0b010000 [0x01]))) (fun t => t.cpu.pc == 0x1001)) = true := by decide

/-- V7.7, step 2: NMI although I = 1 and although IRQ is low. -/
theorem test_nmi :
    gives (step (withNmi (withIrqLow (atBoundary 0 0 0 0b010000 [0x01])))) (fun t =>
      t.cpu.pc == 0x4000 && !t.sys.nmiLatch && bytesAt t 0x01F9 [0xD0]) = true := by decide

/-- V7.4 and V7.5: CLI after an odd opcode holds the IRQ off, after an even one not. -/
theorem test_cli_holdoff :
    (gives (exec .nop (withIrqLow (atBoundary 0 0 0 0b010000 []))) (fun s =>
        gives (exec .cli s) (fun t => t.ctl.irqHoldoff && !t.cpu.ccr.i)) &&
      gives (exec .clc (withIrqLow (atBoundary 0 0 0 0b010000 []))) (fun s =>
        gives (exec .cli s) (fun t => !t.ctl.irqHoldoff && !t.cpu.ccr.i))) = true := by decide

/-- V7.9 and V7.10: a pulse is latched only while I = 0. -/
theorem test_irq_pulse :
    ((atBoundary 0 0 0 0 []).irqPulse.ctl.irqLatch && !(atBoundary 0 0 0 0b010000 []).irqPulse.ctl.irqLatch) = true := by
  decide

/-- R367, D15: a pulse during SEI with I = 0 is latched and kept, over the boundary after it, for the CLI that clears I; one
during SWI is lost, and one during CLI with I = 1 is missed. -/
theorem test_irq_pulse_during :
    let run := fun (flags : BitVec 6) (opcode : Byte) => step { atBoundary 0 0 0 flags [opcode, 0x0E, 0x01] with
      env := { State.reset.env with schedule := [[.irqDuring]] } }
    (gives (run 0 0x0F) (fun t => t.cpu.pc == 0x1001 && t.cpu.ccr.i && t.ctl.irqLatch &&
        gives (step t) (fun u => u.cpu.pc == 0x1002 && !u.cpu.ccr.i && u.ctl.irqLatch)) &&
      gives (run 0 0x3F) (fun t => t.cpu.pc == 0x3000 && !t.ctl.irqLatch) &&
      gives (run 0b010000 0x0E) (fun t => t.cpu.pc == 0x1001 && !t.ctl.irqLatch)) = true := by decide

/-- V7.14, steps 3 and 7: HALT stops at the boundary; when it ends one instruction runs before the latched NMI. -/
theorem test_halt :
    (gives (step { atBoundary 0 0 0 0 [0x01] with env := { State.reset.env with haltLow := true } }) (fun t =>
        t.ctl.runState == .halted && t.cpu.pc == 0x1000) &&
      gives (step (withNmi (inState .halted (atBoundary 0 0 0 0 [0x01])))) (fun t =>
        t.cpu.pc == 0x1001 && t.sys.nmiLatch && t.ctl.runState == .running)) = true := by decide

/-- V7.15: RES. -/
theorem test_reset :
    gives (step (withNmi (inState .held (atBoundary 0 0 0 0 [])))) (fun t =>
      t.cpu.pc == 0x1000 && t.cpu.ccr.i && !t.sys.nmiLatch && t.ctl.runState == .running) = true := by rfl

/-- R390, R492, R505: the pins of an idle MPU. -/
theorem test_idle_pins :
    (inState .held State.reset).idlePins =
        some { ba := false, vma := false, rw := some true, address := some 0xFFFE, data := none } ∧
      (inState .waiting State.reset).idlePins =
        some { ba := true, vma := false, rw := none, address := none, data := none } ∧
      State.reset.idlePins = none := by decide

/-! ### PIA and ACIA: rows of V8 and V9 -/

/-- V8.1: the manual's initialisation. -/
def piaReady : Pia := ((Pia.initial.write 1 0x2F).write 2 0xFF).write 3 0x24

/-- V8.2: the peripheral puts 5A on the lines and raises CA1. -/
def piaFlagged : Pia := ({ piaReady with sideA := { piaReady.sideA with pins := 0x5A } }).edge .ca1 true false false

theorem test_pia_input :
    ((piaFlagged.read 1).1 == 0xAF && piaFlagged.sideA.irqLow && (piaFlagged.read 0).1 == 0x5A &&
      !(piaFlagged.read 0).2.sideA.irqLow && (piaFlagged.read 0).2.sideA.strobes == 1) = true := by decide

theorem test_pia_handshake :
    (!(piaReady.write 2 0xC3).sideB.c2 && ((piaReady.write 2 0xC3).edge .cb1 false false false).sideB.c2 &&
      ((piaReady.write 2 0xC3).edge .cb1 false false false).sideB.control == 0xA4) = true := by decide

/-- U24: with E gated by VMA an edge in the wait state sets no flag and raises no IRQ, and its flag is set when the MPU has
left the state by an NMI. -/
theorem test_e_starved :
    let waiting := { inState .waiting (atBoundary 0 0 0 0 []) with
      sys := { (atBoundary 0 0 0 0 []).sys with pias := [{ (Pia.initial.write 1 0x05) with eGated := true }] } }
    (match waiting.event (.piaEdge 0 .ca1 false false) with
      | .ok t => t.sys.pias.all (fun p => !p.sideA.irq1 && p.sideA.pending1) && !t.irqPresent &&
          gives (step t) (fun u => u.ctl.runState == .waiting) &&
          gives (step (withNmi t)) (fun u => u.cpu.pc == 0x4000 && u.sys.pias.all (·.sideA.irq1) && u.irqPresent)
      | .error _ => false) = true := by decide

/-- R430, D18: an edge of C2 that waits for an E pulse sets no flag if C2 has become an output before it. -/
theorem test_c2_pending :
    let p := { Pia.initial with eGated := true }.edge .ca2 false false true
    (p.pulseE.sideA.irq2 && !(p.write 1 0x24).pulseE.sideA.irq2) = true := by decide

/-- R441: with E gated by VMA, an edge of a pulse entirely in the wait state may be dropped; not after the MPU has left it. -/
theorem test_e_pulses :
    let s := { inState .waiting State.reset with
      sys := { System.initial with pias := [{ Pia.initial with eGated := true }] } }
    let flagged := fun r : Except Refusal State =>
      match r with
      | .ok t => t.sys.pias.all (·.sideA.irq1)
      | .error _ => false
    (!flagged (s.events [.piaEdge 0 .ca1 true true, .piaEdge 0 .ca1 false true]) &&
      match s.event (.piaEdge 0 .ca1 true true) with
      | .ok t => flagged ((withNmi t).waitBoundary.event (.piaEdge 0 .ca1 false true)) &&
          t.sys.pias.all (·.sideA.starved1) && (withNmi t).waitBoundary.sys.pias.all (!·.sideA.starved1)
      | .error _ => false) = true := by decide

/-- V8.5: the fetch of the byte after a NOP at 4003 reads the output register at 4004 and clears the flag. -/
theorem test_false_read :
    gives (step { State.reset with
                  cpu := { State.reset.cpu with pc := 0x0003 }
                  sys := { System.initial with
                           ram := [(3, 0x01)], pias := [piaFlagged]
                           board := { map := { care := 0xFFFF, value := 0x0004, target := .pia 0 0 } :: [
                                        { care := 0xFFFC, value := 0x0000, target := .ram 0 0xFFFF }]
                                      clrReadsFirst := false, tstWritesBack := false } } }) (fun t =>
      t.cpu.pc == 0x0004 && t.sys.pias.all (!·.sideA.irq1)) = true := by decide

/-- V9.1, steps 1, 2 and 4. -/
theorem test_acia_transmit :
    ((Acia.initial.write false 0xB3).status == 0x00 && ((Acia.initial.write false 0xB3).write false 0xA9).status == 0x82 &&
      (((Acia.initial.write false 0xB3).write false 0xA9).write true 0x41).status == 0x00) = true := by decide

/-- V9.2, steps 1, 2 and 4, from control word 89. -/
theorem test_acia_receive :
    let p := ((Acia.initial.write false 0xB3).write false 0x89).rxChar 0x31 false false
    (p.status == 0x83 && (p.rxChar 0x32 false false).status == 0xA3 &&
      ((p.rxChar 0x32 false false).read true).1 == 0x31 &&
      ((p.rxChar 0x32 false false).read true).2.status == 0x02) = true := by decide

/-! ### Assembler, listing and cycles -/

/-- Lines of program AAA (E40). -/
theorem test_assembler :
    assemble (["NB EQU 8", " ORG $1000", "BCD LDA B #NB", " LDX ADDR", "NEXT LDA A NB-1,X", " ADC A 2*NB-1,X", " BNE NEXT",
        " BRA *-1", " ORG $100", "ADDR RMB 2"].map String.toList) =
      .ok [(0x1000, [0xC6, 0x08]), (0x1002, [0xFE, 0x01, 0x00]), (0x1005, [0xA6, 0x07]), (0x1007, [0xA9, 0x0F]),
        (0x1009, [0x26, 0xFA]), (0x100B, [0x20, 0xFD])] := by decide +kernel

/-- Directives of E36, and the mode selection of R111. -/
theorem test_directives :
    assemble ([" FCB ,$F,23,", " FDB ,$F,$EF,,$AFF", " FCC 9,TEXT", " ADDA 255", " ADDA 256", " CLR 5"].map String.toList) =
      .ok [(0, [0x00, 0x0F, 0x17, 0x00]), (4, [0x00, 0x00, 0x00, 0x0F, 0x00, 0xEF, 0x00, 0x00, 0x0A, 0xFF]),
        (14, [0x54, 0x45, 0x58, 0x54, 0x20, 0x20, 0x20, 0x20, 0x20]), (23, [0x9B, 0xFF]), (25, [0xBB, 0x01, 0x00]),
        (28, [0x7F, 0x00, 0x05])] := by decide +kernel

/-- R111: a label defined further on has the direct mode where its value turns out to be in the range 0 to 255, and INC, which
has none, the extended mode; and a program for which neither mode is right. -/
theorem test_forward_modes :
    assemble ([" LDAA L", " STAA M", "L INC L", " ORG $200", "M NOP"].map String.toList) =
      .ok [(0, [0x96, 0x05]), (2, [0xB7, 0x02, 0x00]), (5, [0x7C, 0x00, 0x05]), (0x200, [0x01])] ∧
    assemble ([" ORG 254", " LDAA 512-L", "L NOP"].map String.toList) = .error .unsettledModes := by decide +kernel

/-- R117: an EQU may point one level forward, and another refer back to it; two levels are an error. -/
theorem test_equ_forward :
    assemble (["X1 EQU Y1", "W1 EQU X1", "Y1 EQU 5", " LDAA #W1"].map String.toList) = .ok [(0, [0x86, 0x05])] ∧
      assemble (["X1 EQU Y1", "Y1 EQU Z1", "Z1 EQU 5"].map String.toList) = .error .undefinedSymbol := by decide +kernel

/-- Errors 207, 208 and 210. -/
theorem test_assembler_errors :
    assemble [" FOO".toList] = .error .undefinedOperator ∧ assemble [" BRA *-126".toList] = .error .branchOutOfRange ∧
      assemble [" LDAA #256".toList] = .error .byteOverflow := by decide +kernel

/-- The example of R119, as line 12 of a program, and a data line of R117. -/
theorem test_listing :
    listingLine 12 (some 0x1100) (objectField [0x8E, 0x01, 0x3F]) "LDS #$13F".toList = "12 1100 8E 013F LDS #$13F".toList ∧
      listingLine 3 (some 0x0010) (dataField [0x00, 0x02]) "TWO FDB 2".toList = "3 0010 00 02 TWO FDB 2".toList := by decide

/-- R117: NAM, PAGE, SPC and OPT in a listing. -/
theorem test_program_listing :
    programListing ([" NAM AAA BCD", "* ADD", " ORG $1000", " LDS #$13F", " SPC 2", " PAGE", " OPT NOLIST,DB8", " NOP",
        " OPT LIST", "L RTS", " END"].map String.toList) =
      .ok {
        name := some "AAA BCD".toList
        entries := [.line "1  NAM AAA BCD".toList, .line "2 * ADD".toList, .line "3  ORG $1000".toList,
          .line "4 1000 8E 013F  LDS #$13F".toList, .blank, .blank, .formFeed (some "AAA BCD".toList),
          .line "7  OPT NOLIST,DB8".toList, .line "10 1004 39 L RTS".toList, .line "11  END".toList]
        options := { AsmOptions.initial with base := 8 }
        symbols := [("L".toList, 0x1004)] } := by decide +kernel

/-- E15: 384 cycles for DSUB16, from its three parts. -/
theorem test_cycles :
    totalCycles [.ldxImm 8] + 8 * totalCycles [.ldaaImm 0x99, .subaIdx 0, .staaIdx 0x10, .dex, .bne 0xF7] +
        totalCycles [.ldxImm 8, .sec] +
        8 * totalCycles [.ldaaIdx 0, .adcaIdx 0x10, .daa, .staaIdx 0x10, .dex, .bne 0xF6] = 384 := by decide

/-! ### Program placement -/

/-- LDAB #8 (C6 08, R120) placed where the machine fetches runs as its first instruction. -/
theorem test_withFetchWord :
    gives (step (State.reset.withFetchWord 16 0x08C6)) (fun t => t.cpu.b == 0x08 && t.cpu.pc == 0x0002) = true := by decide

/-- V10, undefined opcode: the reset machine's memory holds 00 at 0000. -/
theorem test_undefined_opcode : step State.reset = .refused (.undefinedOpcode 0x00 0x0000) := rfl

/-! ### Witnesses: a concrete state and operands that meet the hypotheses of each statement -/

theorem witness_EncodeOfDecode : decode [0xBD, 0x10, 0x00, 0x01] = .ok (.jsrExt 0x1000, [0x01]) := rfl

/-- The quiet part of the hypotheses about boundaries. -/
theorem undisturbed_reset : Undisturbed State.reset := ⟨rfl, rfl, rfl, rfl, rfl, rfl, rfl⟩

theorem witness_StepRunsInstruction :
    Undisturbed (atBoundary 0 0 0 0 [0xBD, 0x20, 0x00]) ∧ (atBoundary 0 0 0 0 [0xBD, 0x20, 0x00]).ctl.runState = .running ∧
      (atBoundary 0 0 0 0 [0xBD, 0x20, 0x00]).takesNmi = false ∧
      (atBoundary 0 0 0 0 [0xBD, 0x20, 0x00]).takesIrq = false ∧
      (atBoundary 0 0 0 0 [0xBD, 0x20, 0x00]).sys.cell 0x1000 = some 0xBD ∧
      (atBoundary 0 0 0 0 [0xBD, 0x20, 0x00]).sys.cell 0x1001 = some 0x20 ∧
      (atBoundary 0 0 0 0 [0xBD, 0x20, 0x00]).sys.cell 0x1002 = some 0x00 ∧
      decode [0xBD, 0x20, 0x00] = .ok (.jsrExt 0x2000, []) :=
  ⟨⟨rfl, rfl, rfl, rfl, rfl, rfl, rfl⟩, rfl, by decide, by decide, by decide, by decide, by decide, rfl⟩

theorem witness_UndefinedOpcodeStops :
    Undisturbed State.reset ∧ State.reset.ctl.runState = .running ∧ State.reset.takesNmi = false ∧
      State.reset.takesIrq = false ∧ State.reset.sys.cell State.reset.cpu.pc = some 0x00 ∧
      decode [0x00] = .error (.undefinedOpcode 0x00) :=
  ⟨undisturbed_reset, rfl, by decide, by decide, by decide, rfl⟩

/-- 67 + 79 of E12. -/
theorem witness_DecimalSum :
    ∃ t u, (6 < 10 ∧ 7 < 10 ∧ 7 < 10 ∧ 9 < 10) ∧ (onFlat 0x67 0 0 0 0 []).cpu.a = BitVec.ofNat 8 (16 * 6 + 7) ∧
      exec (.adcaImm (BitVec.ofNat 8 (16 * 7 + 9))) (onFlat 0x67 0 0 0 0 []) = .next t ∧ exec .daa t = .next u :=
  ⟨_, _, by decide, by decide, rfl, rfl⟩

/-- A case for each of the instructions. -/
theorem witness_BranchAfterCompare :
    (∃ t, exec (.dual .cmp .a (.imm 0x87)) (onFlat 0x65 0 0 0 0 []) = .next t) ∧
      (∃ t, exec (.dual .sub .b (.imm 0x65)) (onFlat 0 0x65 0 0 0 []) = .next t) ∧
      (∃ t, exec .cba (onFlat 0x80 0x7F 0 0 0 []) = .next t) ∧ ∃ t, exec .sba (onFlat 0x80 0x7F 0 0 0 []) = .next t :=
  ⟨⟨_, rfl⟩, ⟨_, rfl⟩, ⟨_, rfl⟩, ⟨_, rfl⟩⟩

/-- Both sides of every test of a branch occur. -/
theorem witness_BranchResult :
    (ccrOf 0b001111).c = true ∧ (ccrOf 0b001111).z = true ∧ (ccrOf 0b001111).v = true ∧ (ccrOf 0b001111).n = true ∧
      (ccrOf 0).c = false ∧ (ccrOf 0).z = false ∧ (ccrOf 0).v = false ∧ (ccrOf 0).n = false ∧
      (ccrOf 0b001000).n ≠ (ccrOf 0b001000).v := by decide

/-- BEQ at 1000 with Z = 1: 0F83 is the last destination in range (-127), 0F82 the first out of it. -/
theorem witness_AssembledBranchTarget :
    (onFlat 0 0 0 0 0b000100 []).cpu.pc = BitVec.ofInt 16 0x1000 ∧
      condHolds .eq (onFlat 0 0 0 0 0b000100 []).cpu.ccr = true ∧
      (-127 ≤ (0x0F83 : Int) - 0x1000 - 2 ∧ (0x0F83 : Int) - 0x1000 - 2 ≤ 127) ∧
      ¬(-127 ≤ (0x0F82 : Int) - 0x1000 - 2 ∧ (0x0F82 : Int) - 0x1000 - 2 ≤ 127) := by decide

/-- A byte of read/write memory to store to, and two in different cells: 0000 and 0001 of the minimum system. -/
theorem witness_stores :
    State.reset.sys.ram.wf = true ∧ State.reset.sys.resCut = none ∧ State.reset.sys.steals = [] ∧
      State.reset.sys.region 0x0000 = .ram 0x0000 ∧
      State.reset.sys.region 0x0001 = .ram 0x0001 ∧ (0x0000 : Word) ≠ 0x0001 := by decide

/-- An address outside a stored byte, as the frames of stores ask for it; 0080 is the same cell as 0000. -/
theorem witness_frames :
    State.reset.sys.region 0x0001 ≠ State.reset.sys.region 0x0000 ∧
      State.reset.sys.region 0x0080 = State.reset.sys.region 0x0000 := by decide

theorem witness_TestMemory :
    State.reset.sys.board.tstWritesBack = false ∧
      ({ System.initial with board := { System.initial.board with tstWritesBack := true } }).ram.wf = true := by decide

theorem witness_TransferFlags :
    (State.reset.cpu.ccr.i = true ∧ State.reset.cpu.a.getLsbD 4 = false) ∧
      ¬((onFlat 0x10 0 0 0 0b010000 []).cpu.ccr.i = true ∧ (onFlat 0x10 0 0 0 0b010000 []).cpu.a.getLsbD 4 = false) := by
  decide

theorem witness_IrqSequence :
    Undisturbed (withIrqLow (atBoundary 0 0 0 0 [0x01])) ∧
      (withIrqLow (atBoundary 0 0 0 0 [0x01])).ctl.runState = .running ∧
      (withIrqLow (atBoundary 0 0 0 0 [0x01])).sys.nmiLatch = false ∧
      (withIrqLow (atBoundary 0 0 0 0 [0x01])).cpu.ccr.i = false ∧
      (withIrqLow (atBoundary 0 0 0 0 [0x01])).irqPresent = true ∧
      (withIrqLow (atBoundary 0 0 0 0 [0x01])).ctl.irqHoldoff = false ∧
      (withIrqLow (atBoundary 0 0 0 0 [0x01])).ctl.haltHoldoff = false :=
  ⟨⟨rfl, rfl, rfl, rfl, rfl, rfl, rfl⟩, rfl, rfl, by decide, by decide, rfl, rfl⟩

theorem witness_NmiSequence :
    Undisturbed (withNmi State.reset) ∧ (withNmi State.reset).ctl.runState = .running ∧
      (withNmi State.reset).sys.nmiLatch = true ∧ (withNmi State.reset).ctl.haltHoldoff = false :=
  ⟨⟨rfl, rfl, rfl, rfl, rfl, rfl, rfl⟩, rfl, rfl, rfl⟩

/-- A waiting machine for each of the three clauses. -/
theorem witness_WaitStateExit :
    (Undisturbed (withNmi (inState .waiting State.reset)) ∧ (withNmi (inState .waiting State.reset)).sys.nmiLatch = true) ∧
      (Undisturbed (withIrqLow (inState .waiting (atBoundary 0 0 0 0 []))) ∧
        (withIrqLow (inState .waiting (atBoundary 0 0 0 0 []))).sys.nmiLatch = false ∧
        (withIrqLow (inState .waiting (atBoundary 0 0 0 0 []))).cpu.ccr.i = false ∧
        (withIrqLow (inState .waiting (atBoundary 0 0 0 0 []))).irqPresent = true) ∧
      (Undisturbed (inState .waiting State.reset) ∧ (inState .waiting State.reset).sys.nmiLatch = false ∧
        (inState .waiting State.reset).cpu.ccr.i = true) :=
  ⟨⟨⟨rfl, rfl, rfl, rfl, rfl, rfl, rfl⟩, rfl⟩, ⟨⟨rfl, rfl, rfl, rfl, rfl, rfl, rfl⟩, rfl, by decide, by decide⟩,
    ⟨⟨rfl, rfl, rfl, rfl, rfl, rfl, rfl⟩, rfl, rfl⟩⟩

/-- Both ways to be held off. -/
theorem witness_HoldoffsLastOneBoundary :
    Undisturbed State.reset ∧ State.reset.ctl.runState = .running ∧
      (({ State.reset.ctl with irqHoldoff := true }).irqHoldoff = true ∧ State.reset.sys.nmiLatch = false) ∧
      ({ State.reset.ctl with haltHoldoff := true }).haltHoldoff = true :=
  ⟨undisturbed_reset, rfl, ⟨rfl, rfl⟩, rfl⟩

/-- HALT low on a running machine, and HALT high on a halted one. -/
theorem witness_HaltState :
    State.reset.env.schedule = [] ∧ State.reset.env.resLow = false ∧ State.reset.env.tscHigh = false ∧
      State.reset.env.nmiDuring = false ∧ State.reset.sys.resCut = none ∧ State.reset.ctl.runState = .running ∧
      ({ State.reset.env with haltLow := true }).haltLow = true ∧ (inState .halted State.reset).ctl.runState = .halted ∧
      (inState .halted State.reset).env.haltLow = false :=
  ⟨rfl, rfl, rfl, rfl, rfl, rfl, rfl, rfl, rfl⟩

theorem witness_ResetSequence :
    (inState .held State.reset).env.schedule = [] ∧ (inState .held State.reset).env.resLow = false ∧
      (inState .held State.reset).env.tscHigh = false ∧ (inState .held State.reset).env.nmiDuring = false ∧
      (inState .held State.reset).sys.resCut = none ∧ (inState .held State.reset).ctl.runState = .held :=
  ⟨rfl, rfl, rfl, rfl, rfl, rfl⟩

/-- SP at the top of the minimum system's RAM. -/
def stacked : State := { State.reset with cpu := { State.reset.cpu with sp := 0x007F } }

theorem witness_InterruptThenReturn :
    ∃ t, FrameInRam stacked.sys stacked.cpu.sp ∧ stacked.sys.ram.wf = true ∧ stacked.sys.resCut = none ∧
      stacked.sys.steals = [] ∧ exec .swi stacked = .next t ∧ t.cpu.sp = t.cpu.sp ∧ t.sys.steals = [] ∧
      (∀ a ∈ frameAddresses stacked.cpu.sp, t.sys.cell a = t.sys.cell a) :=
  ⟨_, ⟨[0x7F, 0x7E, 0x7D, 0x7C, 0x7B, 0x7A, 0x79], by decide, by decide⟩, by decide, rfl, rfl, rfl, rfl, rfl,
    fun _ _ => rfl⟩

/-- The reset machine with NOP placed at its PC: the invariant holds and its step answers. -/
theorem witness_InvariantKept :
    (State.reset.withFetchWord 8 0x01).Inv ∧
      step (State.reset.withFetchWord 8 0x01) = .next ((State.reset.withFetchWord 8 0x01).clearHoldoffs.advance 0x01 1) :=
  ⟨⟨by decide, by decide, by decide, by decide, by decide, by decide, by decide⟩, rfl⟩

theorem witness_RomNeverChanges :
    ∃ t, step (State.reset.withFetchWord 8 0x01) = .next t := ⟨_, witness_InvariantKept.2⟩

theorem witness_MaskClearedOnlyBy :
    ∃ t, exec .cli State.reset = .next t ∧ State.reset.cpu.ccr.i = true ∧ t.cpu.ccr.i = false := ⟨_, rfl, rfl, rfl⟩

theorem witness_HalfCarryChangedOnlyBy :
    ∃ t, exec .aba (onFlat 0x08 0x08 0 0 0 []) = .next t ∧ t.cpu.ccr.h ≠ (onFlat 0x08 0x08 0 0 0 []).cpu.ccr.h :=
  ⟨_, rfl, by decide⟩

/-- One address of each kind: 0000 and 0080 are one RAM cell, 007F another, C000 is ROM, 8000 nothing; and a steal that is
due, and one that is not. -/
theorem witness_BusReadWrite :
    { System.initial with steals := [⟨0, .read 0⟩] }.steals = ⟨0, .read 0⟩ :: [] ∧
      { System.initial with steals := [⟨3, .write 0 1⟩] }.steals = ⟨2 + 1, .write 0 1⟩ :: [] ∧
      System.initial.steals = [] ∧ System.initial.resCut = none ∧ System.initial.ram.wf = true ∧
      System.initial.region 0x0000 = .ram 0x0000 ∧ System.initial.region 0x4004 = .pia 0 0b00 ∧
      System.initial.pias[0]? = some Pia.initial ∧ ({ System.initial with pias := [] }).pias[0]? = none ∧
      System.initial.region 0x4009 = .acia 0 true ∧ System.initial.acias[0]? = some Acia.initial ∧
      ({ System.initial with acias := [] }).acias[0]? = none ∧
      System.initial.region 0x0080 = .ram 0x0000 ∧ System.initial.region 0x007F ≠ System.initial.region 0x0000 ∧
      System.initial.region 0xC000 = .rom 0xC000 ∧ System.initial.region 0x8000 = .unpopulated := by decide

/-- A PIA for each clause: output registers selected in handshake, pulse and another mode, and not selected. -/
theorem witness_PiaRegisterRead :
    (Pia.initial.write 1 0x24).sideA.cr.getLsbD 2 = true ∧ (Pia.initial.write 1 0x24).sideA.cr.extractLsb' 3 3 = 0b100 ∧
      (Pia.initial.write 1 0x2F).sideA.cr.extractLsb' 3 3 = 0b101 ∧
      (Pia.initial.write 1 0x3C).sideA.cr.extractLsb' 3 3 = 0b111 ∧ (Pia.initial.write 1 0x3C).sideA.cr.getLsbD 2 = true ∧
      (Pia.initial.write 3 0x04).sideB.cr.getLsbD 2 = true ∧ Pia.initial.sideA.cr.getLsbD 2 = false ∧
      Pia.initial.sideB.cr.getLsbD 2 = false := by decide

/-- A PIA for each clause: direction and output register selected on each side. -/
theorem witness_PiaRegisterWrite :
    Pia.initial.sideA.cr.getLsbD 2 = false ∧ Pia.initial.sideB.cr.getLsbD 2 = false ∧
      piaReady.sideA.cr.getLsbD 2 = true ∧ piaReady.sideB.cr.getLsbD 2 = true := by decide

/-- Set flags on both sides, and a control byte that enables each. -/
theorem witness_PiaInterruptFlags :
    Pia.initial.sideA.cr.getLsbD 5 = false ∧ Pia.initial.sideB.cr.getLsbD 5 = false ∧
      (Pia.initial.write 1 0x24).sideA.cr.getLsbD 5 = true ∧ (Pia.initial.write 3 0x24).sideB.cr.getLsbD 5 = true ∧
      ({ Pia.initial with eGated := true }.edge .ca1 true false true).sideA.starved1 = true ∧
      ({ Pia.initial with eGated := true }.edge .ca1 false false true).sideA.pending1 = true ∧
      piaFlagged.sideA.irq1 = true ∧
      (Pia.initial.edge .cb1 false false false).sideB.irq1 = true ∧
      (Pia.initial.edge .ca2 false false false).sideA.irq2 = true ∧
      (Pia.initial.edge .cb2 false false false).sideB.irq2 = true ∧ (0x09 : Byte).getLsbD 0 = true ∧
      (0x09 : Byte).getLsbD 5 = false ∧ (0x09 : Byte).getLsbD 3 = true := by decide

/-- An ACIA in service, its receiver empty and full, its carrier present, then lost. -/
theorem witness_AciaDataRegisters :
    let p := (Acia.initial.write false 0x03).write false 0x89
    p.quiet = false ∧ p.rdrf = false ∧ (p.rxChar 0x31 false false).quiet = false ∧
      (p.rxChar 0x31 false false).rdrf = true ∧ p.dcdHigh = false ∧ (p.setDcd true).dcdFlag = true ∧
      p.dcdArmed = false := by decide

theorem witness_AciaMasterReset :
    (0x03 : Byte).extractLsb' 0 2 = 0b11 ∧ (0x15 : Byte).extractLsb' 0 2 ≠ 0b11 ∧ Acia.initial.hold = true := by decide

end Sys2Proof.Tests
end

/-! PROOF. The 197 instructions by family (R102), and `exec` of each family as one equation: what a proof about all
instructions, or about all forms of one, splits on. -/

namespace Sys2Proof.Machine

/-- The machine past the bytes of `i`: PC holds the address of the next instruction (R25), and bit 0 of the opcode is noted
(R368). -/
def State.past (s : State) (i : Instr) : State := s.advance ((encode i).headD 0) (BitVec.ofNat 16 i.length)

section past
variable (s : State) (i : Instr)

@[simp] theorem State.past_cpu : (s.past i).cpu = { s.cpu with pc := s.next i } := rfl
@[simp] theorem State.past_ctl : (s.past i).ctl = { s.ctl with prevOpcodeLsb := opcodeLsb i } := rfl
@[simp] theorem State.past_sys : (s.past i).sys = s.sys := rfl
@[simp] theorem State.past_env : (s.past i).env = s.env := rfl

end past

/-- The families of the instruction set: the form builders of the opcode's fields (R102), and each instruction that stands
alone. -/
inductive InstrForm : Instr → Prop
  | dual (op : DualOp) (r : Acc) (o : Operand8) : InstrForm (.dual op r o)
  | sta (r : Acc) (e : Ea) : InstrForm (.sta r e)
  | rmwAcc (op : RmwOp) (r : Acc) : InstrForm (.rmwAcc op r)
  | rmwMem (op : RmwOp) (p : Ptr) : InstrForm (.rmwMem op p)
  | cpx (o : Operand16) : InstrForm (.cpx o)
  | ldx (o : Operand16) : InstrForm (.ldx o)
  | lds (o : Operand16) : InstrForm (.lds o)
  | stx (e : Ea) : InstrForm (.stx e)
  | sts (e : Ea) : InstrForm (.sts e)
  | jmp (p : Ptr) : InstrForm (.jmp p)
  | jsr (p : Ptr) : InstrForm (.jsr p)
  | branch (c : Cond) (rel : Byte) : InstrForm (.branch c rel)
  | bsr (rel : Byte) : InstrForm (.bsr rel)
  | psh (r : Acc) : InstrForm (.psh r)
  | pul (r : Acc) : InstrForm (.pul r)
  | nop : InstrForm .nop
  | tap : InstrForm .tap
  | tpa : InstrForm .tpa
  | inx : InstrForm .inx
  | dex : InstrForm .dex
  | clv : InstrForm .clv
  | sev : InstrForm .sev
  | clc : InstrForm .clc
  | sec : InstrForm .sec
  | cli : InstrForm .cli
  | sei : InstrForm .sei
  | sba : InstrForm .sba
  | cba : InstrForm .cba
  | tab : InstrForm .tab
  | tba : InstrForm .tba
  | daa : InstrForm .daa
  | aba : InstrForm .aba
  | tsx : InstrForm .tsx
  | ins : InstrForm .ins
  | des : InstrForm .des
  | txs : InstrForm .txs
  | rts : InstrForm .rts
  | rti : InstrForm .rti
  | wai : InstrForm .wai
  | swi : InstrForm .swi

/-- Every instruction is of one of the families. -/
theorem instrForm : ∀ i : Instr, InstrForm i
  | .nop => .nop | .tap => .tap | .tpa => .tpa | .inx => .inx | .dex => .dex | .clv => .clv | .sev => .sev
  | .clc => .clc | .sec => .sec | .cli => .cli | .sei => .sei | .sba => .sba | .cba => .cba | .tab => .tab
  | .tba => .tba | .daa => .daa | .aba => .aba | .tsx => .tsx | .ins => .ins | .des => .des | .txs => .txs
  | .rts => .rts | .rti => .rti | .wai => .wai | .swi => .swi | .bsr rel => .bsr rel
  | .bra rel => .branch .always rel | .bhi rel => .branch .hi rel | .bls rel => .branch .ls rel
  | .bcc rel => .branch .cc rel | .bcs rel => .branch .cs rel | .bne rel => .branch .ne rel
  | .beq rel => .branch .eq rel | .bvc rel => .branch .vc rel | .bvs rel => .branch .vs rel
  | .bpl rel => .branch .pl rel | .bmi rel => .branch .mi rel | .bge rel => .branch .ge rel
  | .blt rel => .branch .lt rel | .bgt rel => .branch .gt rel | .ble rel => .branch .le rel
  | .pula => .pul .a | .pulb => .pul .b
  | .psha => .psh .a | .pshb => .psh .b
  | .nega => .rmwAcc .neg .a | .coma => .rmwAcc .com .a | .lsra => .rmwAcc .lsr .a | .rora => .rmwAcc .ror .a
  | .asra => .rmwAcc .asr .a | .asla => .rmwAcc .asl .a | .rola => .rmwAcc .rol .a | .deca => .rmwAcc .dec .a
  | .inca => .rmwAcc .inc .a | .tsta => .rmwAcc .tst .a | .clra => .rmwAcc .clr .a | .negb => .rmwAcc .neg .b
  | .comb => .rmwAcc .com .b | .lsrb => .rmwAcc .lsr .b | .rorb => .rmwAcc .ror .b | .asrb => .rmwAcc .asr .b
  | .aslb => .rmwAcc .asl .b | .rolb => .rmwAcc .rol .b | .decb => .rmwAcc .dec .b | .incb => .rmwAcc .inc .b
  | .tstb => .rmwAcc .tst .b | .clrb => .rmwAcc .clr .b
  | .negIdx off => .rmwMem .neg (.idx off) | .comIdx off => .rmwMem .com (.idx off)
  | .lsrIdx off => .rmwMem .lsr (.idx off) | .rorIdx off => .rmwMem .ror (.idx off)
  | .asrIdx off => .rmwMem .asr (.idx off) | .aslIdx off => .rmwMem .asl (.idx off)
  | .rolIdx off => .rmwMem .rol (.idx off) | .decIdx off => .rmwMem .dec (.idx off)
  | .incIdx off => .rmwMem .inc (.idx off) | .tstIdx off => .rmwMem .tst (.idx off)
  | .clrIdx off => .rmwMem .clr (.idx off) | .negExt w => .rmwMem .neg (.ext w) | .comExt w => .rmwMem .com (.ext w)
  | .lsrExt w => .rmwMem .lsr (.ext w) | .rorExt w => .rmwMem .ror (.ext w) | .asrExt w => .rmwMem .asr (.ext w)
  | .aslExt w => .rmwMem .asl (.ext w) | .rolExt w => .rmwMem .rol (.ext w) | .decExt w => .rmwMem .dec (.ext w)
  | .incExt w => .rmwMem .inc (.ext w) | .tstExt w => .rmwMem .tst (.ext w) | .clrExt w => .rmwMem .clr (.ext w)
  | .jmpIdx off => .jmp (.idx off) | .jmpExt w => .jmp (.ext w)
  | .subaImm m => .dual .sub .a (.imm m) | .cmpaImm m => .dual .cmp .a (.imm m) | .sbcaImm m => .dual .sbc .a (.imm m)
  | .andaImm m => .dual .and .a (.imm m) | .bitaImm m => .dual .bit .a (.imm m) | .ldaaImm m => .dual .lda .a (.imm m)
  | .eoraImm m => .dual .eor .a (.imm m) | .adcaImm m => .dual .adc .a (.imm m) | .oraaImm m => .dual .ora .a (.imm m)
  | .addaImm m => .dual .add .a (.imm m) | .subaDir d => .dual .sub .a (.mem (.dir d))
  | .cmpaDir d => .dual .cmp .a (.mem (.dir d)) | .sbcaDir d => .dual .sbc .a (.mem (.dir d))
  | .andaDir d => .dual .and .a (.mem (.dir d)) | .bitaDir d => .dual .bit .a (.mem (.dir d))
  | .ldaaDir d => .dual .lda .a (.mem (.dir d)) | .eoraDir d => .dual .eor .a (.mem (.dir d))
  | .adcaDir d => .dual .adc .a (.mem (.dir d)) | .oraaDir d => .dual .ora .a (.mem (.dir d))
  | .addaDir d => .dual .add .a (.mem (.dir d)) | .subaIdx off => .dual .sub .a (.mem (.idx off))
  | .cmpaIdx off => .dual .cmp .a (.mem (.idx off)) | .sbcaIdx off => .dual .sbc .a (.mem (.idx off))
  | .andaIdx off => .dual .and .a (.mem (.idx off)) | .bitaIdx off => .dual .bit .a (.mem (.idx off))
  | .ldaaIdx off => .dual .lda .a (.mem (.idx off)) | .eoraIdx off => .dual .eor .a (.mem (.idx off))
  | .adcaIdx off => .dual .adc .a (.mem (.idx off)) | .oraaIdx off => .dual .ora .a (.mem (.idx off))
  | .addaIdx off => .dual .add .a (.mem (.idx off)) | .subaExt w => .dual .sub .a (.mem (.ext w))
  | .cmpaExt w => .dual .cmp .a (.mem (.ext w)) | .sbcaExt w => .dual .sbc .a (.mem (.ext w))
  | .andaExt w => .dual .and .a (.mem (.ext w)) | .bitaExt w => .dual .bit .a (.mem (.ext w))
  | .ldaaExt w => .dual .lda .a (.mem (.ext w)) | .eoraExt w => .dual .eor .a (.mem (.ext w))
  | .adcaExt w => .dual .adc .a (.mem (.ext w)) | .oraaExt w => .dual .ora .a (.mem (.ext w))
  | .addaExt w => .dual .add .a (.mem (.ext w)) | .subbImm m => .dual .sub .b (.imm m)
  | .cmpbImm m => .dual .cmp .b (.imm m) | .sbcbImm m => .dual .sbc .b (.imm m) | .andbImm m => .dual .and .b (.imm m)
  | .bitbImm m => .dual .bit .b (.imm m) | .ldabImm m => .dual .lda .b (.imm m) | .eorbImm m => .dual .eor .b (.imm m)
  | .adcbImm m => .dual .adc .b (.imm m) | .orabImm m => .dual .ora .b (.imm m) | .addbImm m => .dual .add .b (.imm m)
  | .subbDir d => .dual .sub .b (.mem (.dir d)) | .cmpbDir d => .dual .cmp .b (.mem (.dir d))
  | .sbcbDir d => .dual .sbc .b (.mem (.dir d)) | .andbDir d => .dual .and .b (.mem (.dir d))
  | .bitbDir d => .dual .bit .b (.mem (.dir d)) | .ldabDir d => .dual .lda .b (.mem (.dir d))
  | .eorbDir d => .dual .eor .b (.mem (.dir d)) | .adcbDir d => .dual .adc .b (.mem (.dir d))
  | .orabDir d => .dual .ora .b (.mem (.dir d)) | .addbDir d => .dual .add .b (.mem (.dir d))
  | .subbIdx off => .dual .sub .b (.mem (.idx off)) | .cmpbIdx off => .dual .cmp .b (.mem (.idx off))
  | .sbcbIdx off => .dual .sbc .b (.mem (.idx off)) | .andbIdx off => .dual .and .b (.mem (.idx off))
  | .bitbIdx off => .dual .bit .b (.mem (.idx off)) | .ldabIdx off => .dual .lda .b (.mem (.idx off))
  | .eorbIdx off => .dual .eor .b (.mem (.idx off)) | .adcbIdx off => .dual .adc .b (.mem (.idx off))
  | .orabIdx off => .dual .ora .b (.mem (.idx off)) | .addbIdx off => .dual .add .b (.mem (.idx off))
  | .subbExt w => .dual .sub .b (.mem (.ext w)) | .cmpbExt w => .dual .cmp .b (.mem (.ext w))
  | .sbcbExt w => .dual .sbc .b (.mem (.ext w)) | .andbExt w => .dual .and .b (.mem (.ext w))
  | .bitbExt w => .dual .bit .b (.mem (.ext w)) | .ldabExt w => .dual .lda .b (.mem (.ext w))
  | .eorbExt w => .dual .eor .b (.mem (.ext w)) | .adcbExt w => .dual .adc .b (.mem (.ext w))
  | .orabExt w => .dual .ora .b (.mem (.ext w)) | .addbExt w => .dual .add .b (.mem (.ext w))
  | .cpxImm w => .cpx (.imm w) | .cpxDir d => .cpx (.mem (.dir d)) | .cpxIdx off => .cpx (.mem (.idx off))
  | .cpxExt w => .cpx (.mem (.ext w))
  | .ldsImm w => .lds (.imm w) | .ldsDir d => .lds (.mem (.dir d)) | .ldsIdx off => .lds (.mem (.idx off))
  | .ldsExt w => .lds (.mem (.ext w))
  | .staaDir d => .sta .a (.dir d) | .staaIdx off => .sta .a (.idx off) | .staaExt w => .sta .a (.ext w)
  | .stabDir d => .sta .b (.dir d) | .stabIdx off => .sta .b (.idx off) | .stabExt w => .sta .b (.ext w)
  | .stsDir d => .sts (.dir d) | .stsIdx off => .sts (.idx off) | .stsExt w => .sts (.ext w)
  | .jsrIdx off => .jsr (.idx off) | .jsrExt w => .jsr (.ext w)
  | .ldxImm w => .ldx (.imm w) | .ldxDir d => .ldx (.mem (.dir d)) | .ldxIdx off => .ldx (.mem (.idx off))
  | .ldxExt w => .ldx (.mem (.ext w))
  | .stxDir d => .stx (.dir d) | .stxIdx off => .stx (.idx off) | .stxExt w => .stx (.ext w)

/-- The result and flags of a dual-operand operation (R102, R110). -/
def dualAlu (op : DualOp) : Byte → Byte → Ccr → Alu :=
  match op with
  | .sub => aluSub
  | .cmp => aluSub
  | .sbc => aluSbc
  | .and => aluAnd
  | .bit => aluAnd
  | .lda => aluLoad
  | .eor => aluEor
  | .adc => aluAdc
  | .ora => aluOra
  | .add => aluAdd

/-- A dual-operand operation; CMP and BIT discard the result (R210 to R213). -/
def State.dual (s : State) (op : DualOp) (r : Acc) (o : Operand8) : State :=
  match op with
  | .cmp => s.accTest (dualAlu op) r o
  | .bit => s.accTest (dualAlu op) r o
  | _ => s.accOp (dualAlu op) r o

/-- The result and flags of a single-operand operation (R102, R230). -/
def rmwAlu (op : RmwOp) : Byte → Ccr → Alu :=
  match op with
  | .neg => aluNeg
  | .com => aluCom
  | .lsr => aluLsr
  | .ror => aluRor
  | .asr => aluAsr
  | .asl => aluAsl
  | .rol => aluRol
  | .dec => aluDec
  | .inc => aluInc
  | .tst => aluTst
  | .clr => aluClr

/-- A single-operand operation on memory; TST and CLR have their own accesses (R216, R231). -/
def State.rmwMem (s : State) (op : RmwOp) (p : Ptr) : State :=
  match op with
  | .tst => s.memTest p.toEa
  | .clr => s.memClear p.toEa
  | _ => s.memUnary (rmwAlu op) p.toEa

section exec
variable (s : State)

theorem exec_dual (op : DualOp) (r : Acc) (o : Operand8) :
    exec (.dual op r o) s = .next ((s.past (.dual op r o)).dual op r o) := by
  cases op <;> cases r <;> rcases o with m | d | off | w <;> rfl

theorem exec_sta (r : Acc) (e : Ea) : exec (.sta r e) s = .next ((s.past (.sta r e)).storeAcc r e) := by
  cases r <;> cases e <;> rfl

/-- TST is among them: its result is its operand, so that the accumulator keeps its value (R217, R218). -/
theorem exec_rmwAcc (op : RmwOp) (r : Acc) :
    exec (.rmwAcc op r) s = .next ((s.past (.rmwAcc op r)).accUnary (rmwAlu op) r) := by
  cases op <;> cases r <;> rfl

theorem exec_rmwMem (op : RmwOp) (p : Ptr) :
    exec (.rmwMem op p) s = .next ((s.past (.rmwMem op p)).rmwMem op p) := by
  cases op <;> cases p <;> rfl

theorem exec_cpx (o : Operand16) : exec (.cpx o) s = .next ((s.past (.cpx o)).compareX o) := by
  rcases o with w | d | off | w <;> rfl

theorem exec_ldx (o : Operand16) : exec (.ldx o) s = .next ((s.past (.ldx o)).loadX o) := by
  rcases o with w | d | off | w <;> rfl

theorem exec_lds (o : Operand16) : exec (.lds o) s = .next ((s.past (.lds o)).loadSP o) := by
  rcases o with w | d | off | w <;> rfl

theorem exec_stx (e : Ea) : exec (.stx e) s = .next ((s.past (.stx e)).storeWord s.cpu.x e) := by
  cases e <;> rfl

theorem exec_sts (e : Ea) : exec (.sts e) s = .next ((s.past (.sts e)).storeWord s.cpu.sp e) := by
  cases e <;> rfl

theorem exec_jmp (p : Ptr) : exec (.jmp p) s = .next ((s.past (.jmp p)).jump (s.cpu.ea p.toEa)) := by
  cases p <;> rfl

theorem exec_jsr (p : Ptr) : exec (.jsr p) s = .next ((s.past (.jsr p)).call (s.cpu.ea p.toEa)) := by
  cases p <;> rfl

theorem exec_branch (c : Cond) (rel : Byte) :
    exec (.branch c rel) s = .next ((s.past (.branch c rel)).branch c rel) := by
  cases c <;> rfl

theorem exec_psh (r : Acc) : exec (.psh r) s = .next ((s.past (.psh r)).push8 (s.cpu.acc r)) := by
  cases r <;> rfl

theorem exec_pul (r : Acc) :
    exec (.pul r) s =
      .next ((s.past (.pul r)).pull8.2.setCpu
        ((s.past (.pul r)).pull8.2.cpu.setAcc r (s.past (.pul r)).pull8.1)) := by
  cases r <;> rfl

end exec

/-! ### What a family leaves alone -/

section frame
variable {i : Instr} {s t : State}

/-- A store is the only change of memory: the address holds the byte, and the bytes of other regions stay. -/
theorem StoresByte.of_write {a : Word} {v : Byte} (ho : Ordinary i s t) (h : t.sys = s.sys.write a v) :
    StoresByte i s s.sys a v t := by
  refine ⟨ho, h, ?_, ?_⟩
  · intro hs b hb
    rw [h]
    exact System.write_cell_other _ _ _ _ hs (hb a (by simp))
  · intro c hw hc hs ha
    rw [h]
    exact System.write_cell_self _ _ _ _ c hw hc hs ha ha

/-- One read changes no byte of memory. -/
theorem ReadsOnly.of_read {a : Word} (ho : Ordinary i s t) (h : t.sys = (s.sys.read a).2) :
    ReadsOnly i s (s.sys.read a).2 t := by
  refine ⟨ho, h, ?_⟩
  intro hs b
  rw [h]
  exact System.read_cell _ _ _ hs

end frame

end Sys2Proof.Machine

/-! PROOF. The statements of 10_state.md: the stack instructions (R31, R32), the two flags that few instructions touch (R28),
and the step that runs an instruction (R25). -/

namespace Sys2Proof.Machine

/-! ### The stack -/

theorem State.next_psh (s : State) (r : Acc) : s.next (.psh r) = s.cpu.pc + 1 := by cases r <;> rfl

theorem State.next_pul (s : State) (r : Acc) : s.next (.pul r) = s.cpu.pc + 1 := by cases r <;> rfl

/-- Settles O24: PSH is `push8` of the accumulator, past the instruction. -/
theorem pushAccumulator : Obligations.PushAccumulator := by
  intro r s i
  refine ⟨_, exec_psh s r, ?_, StoresByte.of_write ⟨rfl, rfl⟩ rfl⟩
  rw [State.push8_cpu, State.past_cpu, s.next_psh r]

/-- Settles O25: PUL is `pull8` into the accumulator, past the instruction. -/
theorem pullAccumulator : Obligations.PullAccumulator := by
  intro r s i m
  refine ⟨_, exec_pul s r, ?_, ReadsOnly.of_read ⟨rfl, rfl⟩ rfl⟩
  rw [State.setCpu_cpu, State.pull8_cpu, State.pull8_fst, State.past_cpu, State.past_sys, s.next_pul r]

/-! ### H and I -/

/-- The instructions that set H by an 8-bit sum: ADD, ADC and ABA (R160). -/
def setsHalfCarry (i : Instr) : Prop := (∃ r o, i = .dual .add r o ∨ i = .dual .adc r o) ∨ i = .aba

/-- All that an instruction can make of H and I, from the flags `f` to the flags `g` (R28): most leave both, an addition sets
H, SEI and SWI set I, CLI clears it, and TAP and RTI load both from a byte. -/
inductive MaskAndHalfCarry (i : Instr) (f g : Ccr) : Prop
  | kept (hh : g.h = f.h) (hi : g.i = f.i)
  | summed (h : setsHalfCarry i) (hi : g.i = f.i)
  | masked (hh : g.h = f.h) (hi : g.i = true)
  | unmasked (h : i = .cli) (hh : g.h = f.h)
  | loaded (h : i = .tap ∨ i = .rti)

/-- A dual-operand operation leaves I, and H unless it adds. -/
theorem dualAlu_maskAndHalfCarry (op : DualOp) (r : Acc) (o : Operand8) (a m : Byte) (f : Ccr) :
    MaskAndHalfCarry (.dual op r o) f (dualAlu op a m f).2 := by
  cases op with
  | add => exact .summed (.inl ⟨r, o, .inl rfl⟩) rfl
  | adc => exact .summed (.inl ⟨r, o, .inr rfl⟩) rfl
  | sub | cmp | sbc | and | bit | lda | eor | ora => exact .kept rfl rfl

/-- No single-operand operation touches H or I. -/
theorem rmwAlu_maskAndHalfCarry (op : RmwOp) (i : Instr) (m : Byte) (f : Ccr) :
    MaskAndHalfCarry i f (rmwAlu op m f).2 := by
  cases op <;> exact .kept rfl rfl

theorem State.dual_ccr (s : State) (op : DualOp) (r : Acc) (o : Operand8) :
    (s.dual op r o).cpu.ccr = (dualAlu op (s.cpu.acc r) (s.load8 o).1 s.cpu.ccr).2 := by
  cases op <;> simp [State.dual, State.accOp_spec, State.accTest_spec]

/-- The flags of a single-operand operation on memory come from the byte at its address; those of CLR are the same for every
byte, so that it need not be read. -/
theorem State.rmwMem_ccr (s : State) (op : RmwOp) (p : Ptr) :
    (s.rmwMem op p).cpu.ccr = (rmwAlu op (s.sys.read (s.cpu.ea p.toEa)).1 s.cpu.ccr).2 := by
  cases op <;> simp [State.rmwMem, State.memUnary_spec, State.memTest_spec, State.memClear_spec, rmwAlu, aluClr]

/-- Every vectored sequence sets I and leaves the other flags. -/
theorem State.takeInterrupt_ccr (s : State) (ret vector withNmi : Word) (nmi : Bool) :
    (s.takeInterrupt ret vector withNmi nmi).cpu.ccr = { s.cpu.ccr with i := true } := by
  rw [(s.takeInterrupt_spec ret vector withNmi nmi).1]
  rfl

/-- All that `exec` can do to H and I: every instruction answers a next state with one of the five effects (R28). -/
theorem exec_maskAndHalfCarry (i : Instr) (s : State) :
    ∃ t, exec i s = .next t ∧ MaskAndHalfCarry i s.cpu.ccr t.cpu.ccr := by
  cases instrForm i with
  | dual op r o =>
    refine ⟨_, exec_dual s op r o, ?_⟩
    rw [State.dual_ccr]
    exact dualAlu_maskAndHalfCarry op r o _ _ _
  | rmwAcc op r =>
    refine ⟨_, exec_rmwAcc s op r, ?_⟩
    simp only [State.accUnary_spec, Cpu.setAcc_ccr]
    exact rmwAlu_maskAndHalfCarry op _ _ _
  | rmwMem op p =>
    refine ⟨_, exec_rmwMem s op p, ?_⟩
    rw [State.rmwMem_ccr]
    exact rmwAlu_maskAndHalfCarry op _ _ _
  | branch c rel =>
    refine ⟨_, exec_branch s c rel, ?_⟩
    rw [State.branch_spec]
    exact .kept rfl rfl
  | swi =>
    refine ⟨_, rfl, ?_⟩
    rw [State.softwareInterrupt, State.takeInterrupt_ccr]
    exact .masked rfl rfl
  | pul r =>
    refine ⟨_, exec_pul s r, ?_⟩
    rw [State.setCpu_cpu, Cpu.setAcc_ccr]
    exact .kept rfl rfl
  | sta r e => exact ⟨_, exec_sta s r e, .kept rfl rfl⟩
  | cpx o => exact ⟨_, exec_cpx s o, .kept rfl rfl⟩
  | ldx o => exact ⟨_, exec_ldx s o, .kept rfl rfl⟩
  | lds o => exact ⟨_, exec_lds s o, .kept rfl rfl⟩
  | stx e => exact ⟨_, exec_stx s e, .kept rfl rfl⟩
  | sts e => exact ⟨_, exec_sts s e, .kept rfl rfl⟩
  | jmp p => exact ⟨_, exec_jmp s p, .kept rfl rfl⟩
  | jsr p => exact ⟨_, exec_jsr s p, .kept rfl rfl⟩
  | bsr rel => exact ⟨_, rfl, .kept rfl rfl⟩
  | psh r => exact ⟨_, exec_psh s r, .kept rfl rfl⟩
  | sei => exact ⟨_, rfl, .masked rfl rfl⟩
  | cli => exact ⟨_, rfl, .unmasked rfl rfl⟩
  | tap => exact ⟨_, rfl, .loaded (.inl rfl)⟩
  | rti => exact ⟨_, rfl, .loaded (.inr rfl)⟩
  | aba => exact ⟨_, rfl, .summed (.inr rfl) rfl⟩
  | nop | tpa | inx | dex | clv | sev | clc | sec | sba | cba | tab | tba | daa | tsx | ins | des | txs | rts | wai =>
    exact ⟨_, rfl, .kept rfl rfl⟩

/-- The effect of an instruction on H and I, read off the state it answers. -/
theorem maskAndHalfCarry_of_exec {i : Instr} {s t : State} (h : exec i s = .next t) :
    MaskAndHalfCarry i s.cpu.ccr t.cpu.ccr := by
  obtain ⟨u, hu, he⟩ := exec_maskAndHalfCarry i s
  rw [hu] at h
  cases h
  exact he

/-- Settles O53, by the effect of the instruction on I. -/
theorem maskClearedOnlyBy : Obligations.MaskClearedOnlyBy := by
  intro i s t h hs ht
  have hne : t.cpu.ccr.i ≠ s.cpu.ccr.i := by simp [hs, ht]
  cases maskAndHalfCarry_of_exec h with
  | kept _ hi => exact absurd hi hne
  | summed _ hi => exact absurd hi hne
  | masked _ hi => exact absurd (hi.trans hs.symm) hne
  | unmasked hc _ => exact .inl hc
  | loaded hl => exact .inr hl

/-- Settles O54, by the effect of the instruction on H. -/
theorem halfCarryChangedOnlyBy : Obligations.HalfCarryChangedOnlyBy := by
  intro i s t h hne
  cases maskAndHalfCarry_of_exec h with
  | kept hh _ => exact absurd hh hne
  | summed hsum _ => exact hsum.imp id .inl
  | masked hh _ => exact absurd hh hne
  | unmasked _ hh => exact absurd hh hne
  | loaded hl => exact .inr (.inr hl)

/-! ### The step -/

/-- The E pulses of a boundary change no byte of memory. -/
theorem State.clearHoldoffs_pulseE_cell (s : State) (a : Word) : s.clearHoldoffs.pulseE.sys.cell a = s.sys.cell a :=
  System.cell_congr _ _ rfl rfl rfl a

/-- An undisturbed step of a running machine with no interrupt to take goes on to an instruction. -/
theorem step_of_undisturbed {s : State} (hu : Undisturbed s) (hr : s.ctl.runState = .running)
    (hn : s.takesNmi = false) (hi : s.takesIrq = false) : step s = s.clearHoldoffs.pulseE.runInstruction := by
  have hb : s.runBoundary = .execute s.clearHoldoffs.pulseE := by simp [State.runBoundary, hn, hi]
  rw [step_of_empty s hu.1, s.boundary_of_running hu hr, hb, Decision.outcome]

/-- A program in memory is fetched, decoded and executed, the IRQ pulse of the step arriving before it executes. -/
theorem State.runInstruction_of_cells (s : State) {b0 b1 b2 : Byte} {i : Instr} {rest : List Byte}
    (hs : s.sys.steals = []) (h0 : s.sys.cell s.cpu.pc = some b0) (h1 : s.sys.cell (s.cpu.pc + 1) = some b1)
    (h2 : s.sys.cell (s.cpu.pc + 2) = some b2) (hd : decode [b0, b1, b2] = .ok (i, rest)) :
    s.runInstruction = settleOutcome (exec i s.pulseDuring) := by
  obtain ⟨r, hr⟩ := decode_take_fetchCount b0 b1 b2 i rest hd
  rw [State.runInstruction, s.fetch_of_cells b0 b1 b2 hs h0 h1 h2, hr]

/-- Settles O5: the boundary goes on to an instruction, and the fetch finds the same bytes after the E pulses. -/
theorem stepRunsInstruction : Obligations.StepRunsInstruction := by
  intro s b0 b1 b2 i rest hu hr hn hi h0 h1 h2 hd
  rw [step_of_undisturbed hu hr hn hi]
  have hcell := s.clearHoldoffs_pulseE_cell
  obtain ⟨_, _, _, _, _, _, hsteals⟩ := hu
  exact State.runInstruction_of_cells _ hsteals ((hcell _).trans h0) ((hcell _).trans h1) ((hcell _).trans h2) hd

end Sys2Proof.Machine

/-! PROOF. What a step leaves of memories and board: one relation that every operation on the bus keeps, followed from the
single access up to the step. -/

namespace Sys2Proof.Machine

/-! ### One access -/

/-- From the bus `y` to the bus `z` no ROM cell changes, read/write memory stays canonical and the map legal (R61, R63). -/
structure System.KeepsMemory (y z : System) : Prop where
  rom : z.rom = y.rom
  ram : y.ram.wf = true → z.ram.wf = true
  map : y.board.map.legal = true → z.board.map.legal = true

theorem System.KeepsMemory.of_eq {y z : System} (hrom : z.rom = y.rom) (hram : z.ram = y.ram)
    (hboard : z.board = y.board) : y.KeepsMemory z :=
  ⟨hrom, fun h => by rw [hram, h], fun h => by rw [hboard, h]⟩

theorem System.KeepsMemory.refl (y : System) : y.KeepsMemory y := .of_eq rfl rfl rfl

theorem System.KeepsMemory.trans {x y z : System} (h : x.KeepsMemory y) (k : y.KeepsMemory z) : x.KeepsMemory z :=
  ⟨k.rom.trans h.rom, k.ram ∘ h.ram, k.map ∘ h.map⟩

section access
variable (y : System) (a : Word)

theorem System.read_keepsMemory : y.KeepsMemory (y.read a).2 :=
  ⟨y.read_rom a, y.read_ram_wf a, fun h => by rw [y.read_board a, h]⟩

theorem System.write_keepsMemory (v : Byte) : y.KeepsMemory (y.write a v) :=
  ⟨y.write_rom a v, y.write_ram_wf a v, fun h => by rw [y.write_board a v, h]⟩

theorem System.access_keepsMemory (x : BusAccess) : y.KeepsMemory (y.access x) := by
  obtain ⟨hrom, hboard, _⟩ := y.access_frame x
  exact ⟨hrom, y.access_ram_wf x, fun h => by rw [hboard, h]⟩

theorem System.read16_keepsMemory : y.KeepsMemory (y.read16 a).2 :=
  (y.read_keepsMemory a).trans (System.read_keepsMemory _ _)

end access

/-! ### Inside an instruction or a sequence -/

/-- What an operation of the MPU inside a step keeps: memories and board, and the level of RES, which only the environment
moves (R372). -/
structure State.ActsOnBus (s t : State) : Prop where
  memory : s.sys.KeepsMemory t.sys
  resLow : t.env.resLow = s.env.resLow

theorem State.ActsOnBus.of_sys {s t : State} (hsys : t.sys = s.sys) (henv : t.env = s.env) : s.ActsOnBus t :=
  ⟨hsys ▸ .refl _, by rw [henv]⟩

theorem State.ActsOnBus.trans {s t u : State} (h : s.ActsOnBus t) (k : t.ActsOnBus u) : s.ActsOnBus u :=
  ⟨h.memory.trans k.memory, k.resLow.trans h.resLow⟩

section operations
variable (s : State)

theorem State.read_acts (a : Word) : s.ActsOnBus (s.read a).2 := ⟨s.sys.read_keepsMemory a, rfl⟩

theorem State.read16_acts (a : Word) : s.ActsOnBus (s.read16 a).2 := ⟨s.sys.read16_keepsMemory a, rfl⟩

theorem State.write_acts (a : Word) (v : Byte) : s.ActsOnBus (s.write a v) := ⟨s.sys.write_keepsMemory a v, rfl⟩

theorem State.push8_acts (v : Byte) : s.ActsOnBus (s.push8 v) := ⟨s.sys.write_keepsMemory _ v, rfl⟩

theorem State.pull8_acts : s.ActsOnBus s.pull8.2 := ⟨s.sys.read_keepsMemory _, rfl⟩

theorem State.push16_acts (v : Word) : s.ActsOnBus (s.push16 v) := (s.push8_acts _).trans (State.push8_acts _ _)

theorem State.pull16_acts : s.ActsOnBus s.pull16.2 := s.pull8_acts.trans (State.pull8_acts _)

theorem State.past_acts (i : Instr) : s.ActsOnBus (s.past i) := .of_sys rfl rfl

theorem State.load8_acts (o : Operand8) : s.ActsOnBus (s.load8 o).2 := by
  cases o with
  | imm m => exact .of_sys rfl rfl
  | mem e => exact s.read_acts _

theorem State.load16_acts (o : Operand16) : s.ActsOnBus (s.load16 o).2 := by
  cases o with
  | imm w => exact .of_sys rfl rfl
  | mem e => exact s.read16_acts _

theorem State.setCpu_acts (p : Cpu) : s.ActsOnBus (s.setCpu p) := .of_sys rfl rfl

theorem State.setCcr_acts (f : Ccr) : s.ActsOnBus (s.setCcr f) := .of_sys rfl rfl

theorem State.jump_acts (a : Word) : s.ActsOnBus (s.jump a) := .of_sys rfl rfl

theorem State.enterVector_acts (vector : Word) : s.ActsOnBus (s.enterVector vector) :=
  ⟨s.sys.read16_keepsMemory vector, rfl⟩

theorem State.clearNmi_acts : s.ActsOnBus s.clearNmi := ⟨.of_eq rfl rfl rfl, rfl⟩

theorem State.restoreNmi_acts (b : Bool) : s.ActsOnBus (s.restoreNmi b) := ⟨.of_eq rfl rfl rfl, rfl⟩

theorem State.pulseE_acts : s.ActsOnBus s.pulseE := ⟨.of_eq rfl rfl rfl, rfl⟩

theorem State.stackRegisters_acts (ret : Word) : s.ActsOnBus (s.stackRegisters ret) :=
  ((((s.push16_acts ret).trans (State.push16_acts _ _)).trans (State.push8_acts _ _)).trans (State.push8_acts _ _)).trans
    (State.push8_acts _ _)

theorem State.takeInterrupt_acts (ret vector withNmi : Word) (nmi : Bool) :
    s.ActsOnBus (s.takeInterrupt ret vector withNmi nmi) := by
  have hstacked := s.clearNmi_acts.trans (State.stackRegisters_acts _ ret)
  simp only [State.takeInterrupt]
  split
  · exact (hstacked.trans (State.clearNmi_acts _)).trans (State.enterVector_acts _ _)
  · exact (hstacked.trans (State.restoreNmi_acts _ _)).trans (State.enterVector_acts _ _)

theorem State.returnFromInterrupt_acts : s.ActsOnBus s.returnFromInterrupt :=
  ((((s.pull8_acts.trans (State.pull8_acts _)).trans (State.pull8_acts _)).trans (State.pull16_acts _)).trans
    (State.pull16_acts _)).trans (State.setCpu_acts _ _)

theorem State.dual_acts (op : DualOp) (r : Acc) (o : Operand8) : s.ActsOnBus (s.dual op r o) := by
  cases op with
  | cmp | bit => exact (s.load8_acts o).trans (State.setCcr_acts _ _)
  | sub | sbc | and | lda | eor | adc | ora | add => exact (s.load8_acts o).trans (State.setCpu_acts _ _)

theorem State.memUnary_acts (f : Byte → Ccr → Alu) (e : Ea) : s.ActsOnBus (s.memUnary f e) :=
  ((s.read_acts _).trans (State.write_acts _ _ _)).trans (State.setCcr_acts _ _)

theorem State.memClear_acts (e : Ea) : s.ActsOnBus (s.memClear e) := by
  unfold State.memClear
  split
  · exact ((s.read_acts _).trans (State.write_acts _ _ _)).trans (State.setCcr_acts _ _)
  · exact (s.write_acts _ _).trans (State.setCcr_acts _ _)

theorem State.memTest_acts (e : Ea) : s.ActsOnBus (s.memTest e) := by
  unfold State.memTest
  split
  · exact ((s.read_acts _).trans (State.write_acts _ _ _)).trans (State.setCcr_acts _ _)
  · exact (s.read_acts _).trans (State.setCcr_acts _ _)

theorem State.rmwMem_acts (op : RmwOp) (p : Ptr) : s.ActsOnBus (s.rmwMem op p) := by
  cases op with
  | tst => exact s.memTest_acts p.toEa
  | clr => exact s.memClear_acts p.toEa
  | neg | com | lsr | ror | asr | asl | rol | dec | inc => exact s.memUnary_acts _ p.toEa

theorem State.storeWord_acts (v : Word) (e : Ea) : s.ActsOnBus (s.storeWord v e) :=
  ((s.write_acts _ _).trans (State.write_acts _ _ _)).trans (State.setCcr_acts _ _)

theorem State.call_acts (target : Word) : s.ActsOnBus (s.call target) :=
  (s.push16_acts _).trans (State.jump_acts _ _)

theorem State.tapFlags_acts (f : Ccr) : s.ActsOnBus (s.tapFlags f) := by
  unfold State.tapFlags
  split
  · exact ⟨.of_eq rfl rfl rfl, rfl⟩
  · exact s.setCcr_acts f

theorem State.softwareInterrupt_acts : s.ActsOnBus s.softwareInterrupt :=
  ⟨(s.takeInterrupt_acts s.cpu.pc swiVector irqVector s.env.nmiDuring).memory, rfl⟩

end operations

/-- Every instruction, in every state, answers a next state and does no more to the machine around the MPU than act on the
bus. -/
theorem exec_acts (i : Instr) (s : State) : ∃ t, exec i s = .next t ∧ s.ActsOnBus t := by
  have hpast := s.past_acts i
  cases instrForm i with
  | dual op r o => exact ⟨_, exec_dual s op r o, hpast.trans (State.dual_acts _ op r o)⟩
  | sta r e => exact ⟨_, exec_sta s r e, hpast.trans ((State.write_acts _ _ _).trans (State.setCcr_acts _ _))⟩
  | rmwAcc op r => exact ⟨_, exec_rmwAcc s op r, hpast.trans (State.setCpu_acts _ _)⟩
  | rmwMem op p => exact ⟨_, exec_rmwMem s op p, hpast.trans (State.rmwMem_acts _ op p)⟩
  | cpx o => exact ⟨_, exec_cpx s o, hpast.trans ((State.load16_acts _ o).trans (State.setCcr_acts _ _))⟩
  | ldx o => exact ⟨_, exec_ldx s o, hpast.trans ((State.load16_acts _ o).trans (State.setCpu_acts _ _))⟩
  | lds o => exact ⟨_, exec_lds s o, hpast.trans ((State.load16_acts _ o).trans (State.setCpu_acts _ _))⟩
  | stx e => exact ⟨_, exec_stx s e, hpast.trans (State.storeWord_acts _ _ e)⟩
  | sts e => exact ⟨_, exec_sts s e, hpast.trans (State.storeWord_acts _ _ e)⟩
  | jmp p => exact ⟨_, exec_jmp s p, hpast.trans (State.jump_acts _ _)⟩
  | jsr p => exact ⟨_, exec_jsr s p, hpast.trans (State.call_acts _ _)⟩
  | branch c rel =>
    refine ⟨_, exec_branch s c rel, ?_⟩
    rw [State.branch_spec]
    exact hpast.trans (State.jump_acts _ _)
  | bsr rel => exact ⟨_, rfl, hpast.trans (State.call_acts _ _)⟩
  | psh r => exact ⟨_, exec_psh s r, hpast.trans (State.push8_acts _ _)⟩
  | pul r => exact ⟨_, exec_pul s r, hpast.trans ((State.pull8_acts _).trans (State.setCpu_acts _ _))⟩
  | rts => exact ⟨_, rfl, hpast.trans ((State.pull16_acts _).trans (State.jump_acts _ _))⟩
  | rti => exact ⟨_, rfl, hpast.trans (State.returnFromInterrupt_acts _)⟩
  | wai =>
    have hstacked := hpast.trans (State.stackRegisters_acts _ (s.past .wai).cpu.pc)
    exact ⟨_, rfl, hstacked.memory, hstacked.resLow⟩
  | swi => exact ⟨_, rfl, hpast.trans (State.softwareInterrupt_acts _)⟩
  | tap => exact ⟨_, rfl, hpast.trans (State.tapFlags_acts _ _)⟩
  | daa => exact ⟨_, rfl, .of_eq rfl rfl rfl, rfl⟩
  | nop | tpa | inx | dex | clv | sev | clc | sec | cli | sei | sba | cba | tab | tba | aba | tsx | ins | des | txs =>
    exact ⟨_, rfl, .of_sys rfl rfl⟩

theorem acts_of_exec {i : Instr} {s t : State} (h : exec i s = .next t) : s.ActsOnBus t := by
  obtain ⟨u, hu, hacts⟩ := exec_acts i s
  rw [hu] at h
  cases h
  exact hacts

/-- The fetch reads one, two or three bytes (R69, R70, R112). -/
theorem State.fetchBytes_acts (s : State) : s.ActsOnBus s.fetchBytes.2 := by
  have hop := s.read_acts s.cpu.pc
  have hb1 := hop.trans (State.read_acts _ (s.cpu.pc + 1))
  have hb2 := hb1.trans (State.read_acts _ (s.cpu.pc + 2))
  simp only [State.fetchBytes]
  split
  · exact hop
  · exact hb1
  · exact hb2

theorem State.fetch_acts (s : State) : s.ActsOnBus s.fetch.2 :=
  have hbytes := s.clearNmi_acts.trans (State.fetchBytes_acts _)
  ⟨hbytes.memory.trans (.of_eq rfl rfl rfl), hbytes.resLow⟩

/-! ### The boundary -/

/-- The state a decision is about. -/
def Decision.state (d : Decision) : State :=
  match d with
  | .over s => s
  | .execute s => s

section boundary
variable (s : State)

theorem State.clearHoldoffs_acts : s.ActsOnBus s.clearHoldoffs := .of_sys rfl rfl

theorem State.leaveHalt_acts : s.ActsOnBus s.leaveHalt := .of_sys rfl rfl

theorem State.leaveWait_acts : s.ActsOnBus s.leaveWait := ⟨s.pulseE_acts.memory, rfl⟩

theorem State.resetSequence_acts : s.ActsOnBus s.resetSequence := by
  simp only [State.resetSequence]
  refine .trans ?_ (State.enterVector_acts _ _)
  exact ⟨.of_eq rfl rfl rfl, rfl⟩

theorem State.waitBoundary_acts : s.ActsOnBus s.waitBoundary := by
  unfold State.waitBoundary
  split
  · exact (s.leaveWait_acts.trans (State.clearNmi_acts _)).trans (State.enterVector_acts _ _)
  · split
    · exact s.leaveWait_acts.trans (State.enterVector_acts _ _)
    · exact .of_sys rfl rfl

theorem State.nmiSequence_acts : s.ActsOnBus s.nmiSequence := s.takeInterrupt_acts _ _ _ _

theorem State.irqSequence_acts : s.ActsOnBus s.irqSequence := s.takeInterrupt_acts _ _ _ _

theorem State.runBoundary_acts : s.ActsOnBus s.runBoundary.state := by
  have hpulsed := s.clearHoldoffs_acts.trans (State.pulseE_acts _)
  obtain ⟨_, h⟩ | ⟨_, _, h⟩ | ⟨_, _, h⟩ := s.runBoundary_cases <;> rw [h]
  · exact hpulsed.trans (State.nmiSequence_acts _)
  · exact hpulsed.trans (State.irqSequence_acts _)
  · exact hpulsed

/-- With RES low the boundary holds the machine; with RES high it does no more than act on the bus (R372). -/
theorem State.boundary_cases :
    s.boundary = .over s.hold ∨ s.env.resLow = false ∧ s.ActsOnBus s.boundary.state := by
  cases hres : s.env.resLow with
  | true => exact .inl (by simp [State.boundary, hres])
  | false =>
    refine .inr ⟨rfl, ?_⟩
    simp only [State.boundary, hres, Bool.false_eq_true, if_false]
    split
    · exact .of_sys rfl rfl
    · split
      case h_1 => exact s.resetSequence_acts
      case h_2 => exact s.waitBoundary_acts
      case h_3 =>
        split
        · exact .of_sys rfl rfl
        · exact s.leaveHalt_acts.trans (State.runBoundary_acts _)
      case h_4 =>
        split
        · exact .of_sys rfl rfl
        · exact s.runBoundary_acts

end boundary

/-! ### The step -/

/-- RES low holds the MPU (R372). -/
def State.ResHolds (s : State) : Prop := s.env.resLow = true → s.ctl.runState = .held

/-- What every part of a step keeps: memories and board, and that RES low holds the MPU. -/
structure State.KeepsInv (s t : State) : Prop where
  memory : s.sys.KeepsMemory t.sys
  resHolds : s.ResHolds → t.ResHolds

theorem State.KeepsInv.refl (s : State) : s.KeepsInv s := ⟨.refl _, id⟩

theorem State.KeepsInv.trans {s t u : State} (h : s.KeepsInv t) (k : t.KeepsInv u) : s.KeepsInv u :=
  ⟨h.memory.trans k.memory, k.resHolds ∘ h.resHolds⟩

/-- While RES is high there is nothing to hold. -/
theorem State.ActsOnBus.keepsInv {s t : State} (h : s.ActsOnBus t) (hres : s.env.resLow = false) : s.KeepsInv t :=
  ⟨h.memory, fun _ hlow => by rw [h.resLow, hres] at hlow; cases hlow⟩

/-- What touches neither the level of RES nor the run state. -/
theorem State.KeepsInv.of_memory {s t : State} (h : s.sys.KeepsMemory t.sys) (hres : t.env.resLow = s.env.resLow)
    (hrun : t.ctl.runState = s.ctl.runState) : s.KeepsInv t :=
  ⟨h, fun hs hlow => hrun.trans (hs (hres.symm.trans hlow))⟩

section events
variable (s : State)

theorem State.hold_keepsInv : s.KeepsInv s.hold := ⟨.of_eq rfl rfl rfl, fun _ _ => rfl⟩

/-- RES going low holds the MPU at once, and it stays held when RES rises (R372, R490). -/
theorem State.setRes_keepsInv (low : Bool) : s.KeepsInv (s.setRes low) := by
  unfold State.setRes
  split
  · exact ⟨s.hold_keepsInv.memory, fun _ _ => rfl⟩
  · exact .refl s

theorem State.onPia_keepsInv (d : Nat) (f : Pia → Pia) : s.KeepsInv (s.onPia d f) := by
  unfold State.onPia
  split
  · exact .of_memory (.of_eq rfl rfl rfl) rfl rfl
  · exact .refl s

theorem State.onAcia_keepsInv (d : Nat) (f : Acia → Acia) : s.KeepsInv (s.onAcia d f) := by
  unfold State.onAcia
  split
  · exact .of_memory (.of_eq rfl rfl rfl) rfl rfl
  · exact .refl s

theorem State.event_keepsInv {t : State} (e : Event) (h : s.event e = .ok t) : s.KeepsInv t := by
  cases e with
  | remap map =>
    simp only [State.event] at h
    split at h
    · cases h
      exact .of_memory ⟨rfl, id, fun _ => ‹_›⟩ rfl rfl
    · cases h
  | dma x =>
    cases h
    split
    · exact .of_memory (s.sys.access_keepsMemory x) rfl rfl
    · exact .refl s
  | res low => cases h; exact s.setRes_keepsInv low
  | setPA | setPB | loadPA | piaEdge | piaReset => cases h; exact s.onPia_keepsInv _ _
  | rxStart | rxChar | txReady | cts | dcd => cases h; exact s.onAcia_keepsInv _ _
  | irqLine | irqPulse | irqDuring | nmiEdge | nmiDuring | halt | resDuring | tsc | steal =>
    cases h
    exact .of_memory (.of_eq rfl rfl rfl) rfl rfl

theorem State.events_keepsInv {s t : State} (es : List Event) (h : s.events es = .ok t) : s.KeepsInv t := by
  induction es generalizing s with
  | nil => cases h; exact .refl _
  | cons e rest ih =>
    simp only [State.events] at h
    split at h
    · exact (State.event_keepsInv _ e ‹_›).trans (ih h)
    · cases h

theorem State.pollEnvironment_keepsInv {t : State} (h : s.pollEnvironment = .ok t) : s.KeepsInv t := by
  unfold State.pollEnvironment at h
  split at h
  · cases h; exact .refl s
  · refine .trans ?_ (State.events_keepsInv _ h)
    exact .of_memory (.refl _) rfl rfl

/-- The end of a step may find that RES fell inside it, and then holds the MPU (R492). -/
theorem State.settle_keepsInv : s.KeepsInv s.settle := by
  simp only [State.settle]
  split
  · refine .trans ?_ (State.setRes_keepsInv _ true)
    exact .of_memory (.of_eq rfl rfl rfl) rfl rfl
  · exact .of_memory (.of_eq rfl rfl rfl) rfl rfl

/-- The end of a step leaves nothing of a cut, an edge or a pulse that fell inside it. -/
theorem State.settle_spent :
    s.settle.sys.resCut = none ∧ s.settle.env.nmiDuring = false ∧ s.settle.env.irqDuring = false := by
  unfold State.settle
  split <;> exact ⟨rfl, rfl, rfl⟩

end events

/-- A step keeps memories, board and the hold of RES up to its end, which settles it. -/
theorem step_settles {s t : State} (h : step s = .next t) : ∃ u, s.KeepsInv u ∧ t = u.settle := by
  obtain ⟨p, hp, ⟨u, hu, rfl⟩ | ⟨u, i, _, v, hu, _, hexec, rfl⟩⟩ := step_next_cases h
  · refine ⟨u, (s.pollEnvironment_keepsInv hp).trans ?_, rfl⟩
    rcases p.boundary_cases with hhold | ⟨hres, hacts⟩
    · cases hu.symm.trans hhold
      exact p.hold_keepsInv
    · rw [hu] at hacts
      exact hacts.keepsInv hres
  · refine ⟨v, (s.pollEnvironment_keepsInv hp).trans ?_, rfl⟩
    rcases p.boundary_cases with hhold | ⟨hres, hacts⟩
    · cases hu.symm.trans hhold
    · rw [hu] at hacts
      exact ((hacts.trans u.fetch_acts).trans (acts_of_exec hexec)).keepsInv hres

theorem step_keepsInv {s t : State} (h : step s = .next t) : s.KeepsInv t := by
  obtain ⟨u, hu, rfl⟩ := step_settles h
  exact hu.trans u.settle_keepsInv

end Sys2Proof.Machine

/-! PROOF. The statements of 20_memory.md: what every step keeps (R61, R63, R372), the accesses of the bus (R61 to R64, R79),
and the instructions that store a word, call, or test memory. -/

namespace Sys2Proof.Machine

/-! ### What every step keeps -/

/-- Settles O50: every part of the step keeps memories, map and the hold of RES, and its end spends the rest. -/
theorem invariantKept : Obligations.InvariantKept := by
  intro s t hinv h
  obtain ⟨hmem, hres⟩ := step_keepsInv h
  obtain ⟨u, _, rfl⟩ := step_settles h
  obtain ⟨hcut, hedge, hpulse⟩ := u.settle_spent
  exact ⟨hmem.ram hinv.ramCanonical, by rw [hmem.rom, hinv.romCanonical], hmem.map hinv.mapLegal, hres hinv.resHolds,
    hcut, hedge, hpulse⟩

/-- Settles O52: no part of a step changes a ROM cell. -/
theorem romNeverChanges : Obligations.RomNeverChanges := fun _ _ h => (step_keepsInv h).memory.rom

/-- Settles O51: both memories are empty, the map is that of the minimum system, and RES is high. -/
theorem invariantAtReset : Obligations.InvariantAtReset := by
  unfold Obligations.InvariantAtReset
  exact { ramCanonical := by decide, romCanonical := by decide, mapLegal := by decide, resHolds := by decide
          noCut := rfl, noEdgeLeft := rfl, noPulseLeft := rfl }

/-! ### Words stored and pushed -/

section words
variable (y : System) (a b : Word) (v w : Byte)

/-- Two writes change no byte of another region. -/
theorem System.write_write_sameBytesExcept : SameBytesExcept [a, b] y ((y.write a v).write b w) := by
  intro hs c hc
  refine y.writes_cell_other [(a, v), (b, w)] c hs ?_
  simpa using hc

/-- Two writes to different cells of read/write memory both stay. -/
theorem System.write_write_cell {c d : Word} (hw : y.ram.wf = true) (hcut : y.resCut = none) (hs : y.steals = [])
    (ha : y.region a = .ram c) (hb : y.region b = .ram d) (hcd : c ≠ d) :
    ((y.write a v).write b w).cell a = some v ∧ ((y.write a v).write b w).cell b = some w := by
  have hstay := y.writes_cell_self [(a, v), (b, w)] hw hcut hs (by simp [ha, hb, hcd]) (by simp [ha, hb])
  exact ⟨hstay (a, v) (by simp), hstay (b, w) (by simp)⟩

end words

theorem StoresWord.of_write {i : Instr} {s t : State} {a v : Word} (ho : Ordinary i s t)
    (h : t.sys = (s.sys.write a (highByte v)).write (a + 1) (lowByte v)) : StoresWord i s a v t := by
  refine ⟨ho, h, ?_, ?_⟩ <;> rw [h]
  · exact s.sys.write_write_sameBytesExcept _ _ _ _
  · intro c d hw hcut hs hc hd hcd
    exact s.sys.write_write_cell _ _ _ _ hw hcut hs hc hd hcd

theorem PushesReturn.of_write {i : Instr} {s t : State} {ret : Word} (ho : Ordinary i s t)
    (h : t.sys = (s.sys.write s.cpu.sp (lowByte ret)).write (s.cpu.sp - 1) (highByte ret)) : PushesReturn i s ret t := by
  refine ⟨ho, h, ?_, ?_⟩ <;> rw [h]
  · exact s.sys.write_write_sameBytesExcept _ _ _ _
  · intro c d hw hcut hs hc hd hcd
    exact s.sys.write_write_cell _ _ _ _ hw hcut hs hc hd hcd

theorem move16Flags_eq (v : Word) (f : Ccr) :
    move16Flags v f = { f with n := v.msb, z := decide (v = 0), v := false } := by
  rw [msb_word]
  rfl

/-- A 16-bit store past its instruction. -/
theorem State.past_storeWord (s : State) (i : Instr) (v : Word) (e : Ea) :
    ((s.past i).storeWord v e).cpu = { s.cpu with
        pc := s.next i, ccr := { s.cpu.ccr with n := v.msb, z := decide (v = 0), v := false } } ∧
      StoresWord i s (s.cpu.ea e) v ((s.past i).storeWord v e) := by
  obtain ⟨hcpu, hsys, hctl, henv⟩ := (s.past i).storeWord_spec v e
  rw [State.past_cpu, Cpu.ea_pc] at hsys
  refine ⟨?_, .of_write ⟨hctl, henv⟩ hsys⟩
  rw [hcpu, move16Flags_eq, State.past_cpu]

/-- Settles O31: STX and STS are one 16-bit store, of X and of SP. -/
theorem storeIndexAndStack : Obligations.StoreIndexAndStack := fun e s =>
  ⟨⟨_, exec_stx s e, s.past_storeWord _ _ e⟩, ⟨_, exec_sts s e, s.past_storeWord _ _ e⟩⟩

/-- A call past its instruction: the return address is the next instruction's. -/
theorem State.past_call (s : State) (i : Instr) (target : Word) :
    ((s.past i).call target).cpu = { s.cpu with sp := s.cpu.sp - 2, pc := target } ∧
      PushesReturn i s (s.next i) ((s.past i).call target) := by
  obtain ⟨hcpu, hsys, hctl, henv⟩ := (s.past i).call_spec target
  have hsp : s.cpu.sp - 1 - 1 = s.cpu.sp - 2 := by bv_omega
  refine ⟨?_, .of_write ⟨hctl, henv⟩ hsys⟩
  rw [hcpu, State.past_cpu, hsp]

/-- Settles O34: BSR and both forms of JSR are a call, each of its own target. -/
theorem callSubroutine : Obligations.CallSubroutine := fun s =>
  ⟨fun rel => ⟨_, rfl, s.past_call (.bsr rel) _⟩, fun off => ⟨_, exec_jsr s (.idx off), s.past_call _ _⟩,
    fun w => ⟨_, exec_jsr s (.ext w), s.past_call _ _⟩⟩

/-! ### TST on memory -/

section writeBack
variable {y : System} {a : Word}

/-- Addresses of one region have one byte (R61). -/
theorem System.cell_of_region_eq {b : Word} (h : y.region b = y.region a) : y.cell b = y.cell a := by
  simp only [System.cell, h]

/-- Where a device or nothing responds there is no byte of memory, whatever happens to memories and devices. -/
theorem System.cell_none_of_region {z : System} (hr : z.region a = y.region a) (h : y.cell a = none) :
    z.cell a = none := by
  unfold System.cell at h ⊢
  rw [hr]
  split at h <;> simp_all

/-- A cell given the byte it holds changes no byte of memory. -/
theorem System.store_same_cell {v : Byte} (hw : y.ram.wf = true) (h : y.cell a = some v) (b : Word) :
    (y.store a v).cell b = y.cell b := by
  by_cases hb : y.region b = y.region a
  · cases ha : y.region a with
    | ram c => rw [y.store_cell_self a b v c hw ha (hb.trans ha), System.cell_of_region_eq hb, h]
    | rom c => simp only [System.store, ha]
    | pia d rs | acia d rs | unpopulated => simp [System.cell, ha] at h
  · exact y.store_cell_other a b v hb

theorem System.write_same_cell {v : Byte} (hw : y.ram.wf = true) (hs : y.steals = []) (h : y.cell a = some v) (b : Word) :
    (y.write a v).cell b = y.cell b := by
  unfold System.write
  split
  · rfl
  · rw [y.grant_of_none hs]
    exact System.store_same_cell hw h b

/-- Writing back the byte just read changes no byte of memory (R534). -/
theorem System.write_read_cell (hw : y.ram.wf = true) (hs : y.steals = []) (b : Word) :
    ((y.read a).2.write a (y.read a).1).cell b = y.cell b := by
  cases h : y.cell a with
  | some v =>
    rw [y.read_of_cell a v hs h]
    exact System.write_same_cell hw hs h b
  | none =>
    by_cases hb : y.region b = y.region a
    · have hnone : y.cell b = none := (System.cell_of_region_eq hb).trans h
      rw [hnone, System.cell_none_of_region (by simp) hnone]
    · rw [System.write_cell_other _ a b _ (y.read_steals a hs) (by simpa using hb), y.read_cell a b hs]

end writeBack

theorem aluTst_flags (m : Byte) (f : Ccr) :
    (aluTst m f).2 = { f with n := m.msb, z := decide (m = 0), v := false, c := false } := by
  rw [msb_byte]
  rfl

/-- Settles O22: TST reads its address and, on a board that ignores VMA, writes the byte back. -/
theorem testMemory : Obligations.TestMemory := by
  intro p s i a m
  obtain ⟨hcpu, hsys, hctl, henv⟩ := (s.past i).memTest_spec p.toEa
  rw [State.past_cpu, Cpu.ea_pc, State.past_sys] at hcpu hsys
  refine ⟨_, exec_rmwMem s .tst p, hcpu.trans ?_, ⟨hctl, henv⟩, ?_, hsys⟩
  · rw [aluTst_flags]
  · intro hboard hs b
    refine (congrArg (System.cell · b) hsys).trans ?_
    split
    case isTrue hback =>
      have hw : s.sys.ram.wf = true := hboard.resolve_left (by simp [hback])
      exact System.write_read_cell hw hs b
    case isFalse => exact s.sys.read_cell a b hs

/-! ### The bus -/

section bus
variable {y : System} (a : Word) (v : Byte)

/-- With no RES inside the instruction a read is made, after what another master does. -/
theorem System.read_of_uncut (h : y.resCut = none) : y.read a = y.grant.readUncut a := by
  simp [System.read, System.cut, h]

/-- A read with nothing to disturb it. -/
theorem System.read_of_quiet (h : y.resCut = none) (hs : y.steals = []) : y.read a = y.readUncut a := by
  rw [System.read_of_uncut a h, y.grant_of_none hs]

/-- A write with nothing to disturb it. -/
theorem System.write_of_quiet (h : y.resCut = none) (hs : y.steals = []) : y.write a v = y.store a v := by
  rw [y.write_of_uncut a v h, y.grant_of_none hs]

end bus

/-! What the two accesses do in each region (R61 to R63). -/

section regions
variable {y : System} {a : Word} (v : Byte)

theorem System.uncut_of_rom {c : Word} (h : y.region a = .rom c) :
    y.store a v = y ∧ y.readUncut a = (y.rom.read c, y) := by
  simp [System.store, System.readUncut, h]

theorem System.uncut_of_pia {d : Nat} {rs : BitVec 2} {p : Pia} (h : y.region a = .pia d rs) (hp : y.pias[d]? = some p) :
    y.readUncut a = ((p.read rs).1, { y with pias := y.pias.set d (p.read rs).2 }.noteNmi) ∧
      y.store a v = { y with pias := y.pias.set d (p.write rs v) }.noteNmi := by
  simp [System.store, System.readUncut, h, hp]

theorem System.uncut_of_acia {d : Nat} {rs : Bool} {p : Acia} (h : y.region a = .acia d rs) (hp : y.acias[d]? = some p) :
    y.readUncut a = ((p.read rs).1, { y with acias := y.acias.set d (p.read rs).2 }.noteNmi) ∧
      y.store a v = { y with acias := y.acias.set d (p.write rs v) }.noteNmi := by
  simp [System.store, System.readUncut, h, hp]

/-- Nothing responds at an address: it is unpopulated, or a select of a device the board does not have (log 5). -/
inductive System.Floats (y : System) (a : Word) : Prop
  | unpopulated (h : y.region a = .unpopulated)
  | noPia {d : Nat} {rs : BitVec 2} (h : y.region a = .pia d rs) (hp : y.pias[d]? = none)
  | noAcia {d : Nat} {rs : Bool} (h : y.region a = .acia d rs) (hp : y.acias[d]? = none)

theorem System.uncut_of_floats (h : y.Floats a) :
    y.store a v = y ∧ y.readUncut a = (Config.floatingByte y.draws, { y with draws := y.draws + 1 }) := by
  cases h with
  | unpopulated h => simp [System.store, System.readUncut, h]
  | noPia h hp => simp [System.store, System.readUncut, h, hp]
  | noAcia h hp => simp [System.store, System.readUncut, h, hp]

end regions

/-- Settles O55: with no stolen cycle an access is what its region makes of it; otherwise the head of the queue of steals
decides what comes before it. -/
theorem busReadWrite : Obligations.BusReadWrite := by
  intro y a b v hcut
  refine ⟨?quiet, ?due, ?later, y.write_ram_wf a v⟩
  case quiet =>
    intro hs
    refine ⟨?readBack, y.write_cell_other a b v hs, ?_⟩
    case readBack =>
      intro c hw ha hb
      rw [System.read_of_cell _ b v (y.write_steals a v hs) (y.write_cell_self a b v c hw hcut hs ha hb)]
    rw [System.read_of_quiet a hcut hs, System.write_of_quiet a v hcut hs]
    exact ⟨fun _ ha => System.uncut_of_rom v ha,
      fun _ _ ha => ⟨fun _ hp => System.uncut_of_pia v ha hp, fun hp => System.uncut_of_floats v (.noPia ha hp)⟩,
      fun _ _ ha => ⟨fun _ hp => System.uncut_of_acia v ha hp, fun hp => System.uncut_of_floats v (.noAcia ha hp)⟩,
      fun ha => System.uncut_of_floats v (.unpopulated ha)⟩
  case due =>
    intro x rest hs
    obtain ⟨_, _, hkept, _⟩ := y.access_frame x
    have hcut' : { y.access x with steals := rest }.resCut = none := hkept.trans hcut
    rw [System.read_of_uncut a hcut, y.write_of_uncut a v hcut, System.read_of_uncut a hcut',
      System.write_of_uncut _ a v hcut', y.grant_due x rest hs]
    exact ⟨rfl, rfl⟩
  case later =>
    intro n x rest hs
    rw [System.read_of_uncut a hcut, y.write_of_uncut a v hcut, y.grant_later n x rest hs]
    exact ⟨rfl, rfl⟩

end Sys2Proof.Machine

/-! PROOF. The statements of 30_encoding.md: decoding and encoding by the cells of the opcode map (R100 to R113), the fetch of
an unassigned opcode (R112), and the branches (R109). -/

namespace Sys2Proof

/-! ### Decoding and encoding by the opcode map -/

/-- The cell makes the instruction of these operand bytes: none, one, or the two of a word, high byte first (R64, R100). -/
inductive OpcodeCell.Makes : OpcodeCell → List Byte → Instr → Prop
  | inh (i : Instr) : Makes (.inh i) [] i
  | byte (f : Byte → Instr) (b : Byte) : Makes (.byte f) [b] (f b)
  | word (f : Word → Instr) (w : Word) : Makes (.word f) [highByte w, lowByte w] (f w)

/-- Decoding gives the instruction that the opcode's cell makes of the operand bytes, and reads no byte after them. -/
theorem decode_of_makes {opcode : Byte} {operands : List Byte} {i : Instr}
    (h : (opcodeCell opcode).Makes operands i) (rest : List Byte) :
    decode (opcode :: operands ++ rest) = .ok (i, rest) := by
  generalize hc : opcodeCell opcode = cell at h
  cases h <;> simp [decode, hc]

/-- Bytes that decode are an opcode, the operand bytes that its cell makes the instruction of, and the rest. -/
theorem makes_of_decode {bytes rest : List Byte} {i : Instr} (h : decode bytes = .ok (i, rest)) :
    ∃ opcode operands, bytes = opcode :: operands ++ rest ∧ (opcodeCell opcode).Makes operands i := by
  cases bytes with
  | nil => simp [decode] at h
  | cons opcode tail =>
    refine ⟨opcode, ?_⟩
    cases hc : opcodeCell opcode with
    | unassigned => simp [decode, hc] at h
    | inh j =>
      obtain ⟨rfl, rfl⟩ : j = i ∧ tail = rest := by simpa [decode, hc] using h
      exact ⟨[], rfl, .inh j⟩
    | byte f =>
      match tail with
      | [] => simp [decode, hc] at h
      | b :: after =>
        obtain ⟨rfl, rfl⟩ : f b = i ∧ after = rest := by simpa [decode, hc] using h
        exact ⟨[b], rfl, .byte f b⟩
    | word f =>
      match tail with
      | [] => simp [decode, hc] at h
      | [_] => simp [decode, hc] at h
      | hi :: lo :: after =>
        obtain ⟨rfl, rfl⟩ : f (joinBytes hi lo) = i ∧ after = rest := by simpa [decode, hc] using h
        exact ⟨[hi, lo], rfl, by simpa using OpcodeCell.Makes.word f (joinBytes hi lo)⟩

/-- The encoding of an instruction is an opcode and the operand bytes that the opcode's cell makes the instruction of. -/
theorem encode_makes (i : Instr) :
    ∃ opcode operands, encode i = opcode :: operands ∧ (opcodeCell opcode).Makes operands i := by
  cases i with
  | nop | tap | tpa | inx | dex | clv | sev | clc | sec | cli | sei | sba | cba | tab | tba | daa | aba | tsx | ins
  | pula | pulb | des | txs | psha | pshb | rts | rti | wai | swi | nega | coma | lsra | rora | asra | asla | rola
  | deca | inca | tsta | clra | negb | comb | lsrb | rorb | asrb | aslb | rolb | decb | incb | tstb | clrb =>
    exact ⟨_, _, rfl, .inh _⟩
  | bra b | bhi b | bls b | bcc b | bcs b | bne b | beq b | bvc b | bvs b | bpl b | bmi b | bge b | blt b | bgt b
  | ble b | negIdx b | comIdx b | lsrIdx b | rorIdx b | asrIdx b | aslIdx b | rolIdx b | decIdx b | incIdx b
  | tstIdx b | jmpIdx b | clrIdx b | subaImm b | cmpaImm b | sbcaImm b | andaImm b | bitaImm b | ldaaImm b
  | eoraImm b | adcaImm b | oraaImm b | addaImm b | bsr b | subaDir b | cmpaDir b | sbcaDir b | andaDir b
  | bitaDir b | ldaaDir b | staaDir b | eoraDir b | adcaDir b | oraaDir b | addaDir b | cpxDir b | ldsDir b
  | stsDir b | subaIdx b | cmpaIdx b | sbcaIdx b | andaIdx b | bitaIdx b | ldaaIdx b | staaIdx b | eoraIdx b
  | adcaIdx b | oraaIdx b | addaIdx b | cpxIdx b | jsrIdx b | ldsIdx b | stsIdx b | subbImm b | cmpbImm b
  | sbcbImm b | andbImm b | bitbImm b | ldabImm b | eorbImm b | adcbImm b | orabImm b | addbImm b | subbDir b
  | cmpbDir b | sbcbDir b | andbDir b | bitbDir b | ldabDir b | stabDir b | eorbDir b | adcbDir b | orabDir b
  | addbDir b | ldxDir b | stxDir b | subbIdx b | cmpbIdx b | sbcbIdx b | andbIdx b | bitbIdx b | ldabIdx b
  | stabIdx b | eorbIdx b | adcbIdx b | orabIdx b | addbIdx b | ldxIdx b | stxIdx b =>
    exact ⟨_, _, rfl, .byte _ b⟩
  | negExt w | comExt w | lsrExt w | rorExt w | asrExt w | aslExt w | rolExt w | decExt w | incExt w | tstExt w
  | jmpExt w | clrExt w | cpxImm w | ldsImm w | subaExt w | cmpaExt w | sbcaExt w | andaExt w | bitaExt w
  | ldaaExt w | staaExt w | eoraExt w | adcaExt w | oraaExt w | addaExt w | cpxExt w | jsrExt w | ldsExt w
  | stsExt w | ldxImm w | subbExt w | cmpbExt w | sbcbExt w | andbExt w | bitbExt w | ldabExt w | stabExt w
  | eorbExt w | adcbExt w | orabExt w | addbExt w | ldxExt w | stxExt w =>
    exact ⟨_, _, rfl, .word _ w⟩

/-- Settles O1: the encoding is what the opcode's cell makes the instruction of, and decoding reads just that. -/
theorem decodeOfEncode : Obligations.DecodeOfEncode := by
  intro i rest
  obtain ⟨opcode, operands, he, hm⟩ := encode_makes i
  rw [he]
  exact decode_of_makes hm rest

/-- The instructions that the cell makes are encoded as this opcode and the bytes they are made of. -/
def OpcodeCell.EncodedAs (cell : OpcodeCell) (opcode : Byte) : Prop :=
  ∀ operands i, cell.Makes operands i → encode i = opcode :: operands

section encodedAs
variable (opcode : Byte)

@[simp] theorem OpcodeCell.unassigned_encodedAs : OpcodeCell.unassigned.EncodedAs opcode := by
  rintro _ _ ⟨⟩

@[simp] theorem OpcodeCell.inh_encodedAs (i : Instr) : (OpcodeCell.inh i).EncodedAs opcode ↔ encode i = [opcode] :=
  ⟨fun h => h _ _ (.inh i), by rintro h _ _ ⟨⟩; exact h⟩

@[simp] theorem OpcodeCell.byte_encodedAs (f : Byte → Instr) :
    (OpcodeCell.byte f).EncodedAs opcode ↔ ∀ b, encode (f b) = encodeByte opcode b :=
  ⟨fun h b => h _ _ (.byte f b), by rintro h _ _ ⟨⟩; exact h _⟩

@[simp] theorem OpcodeCell.word_encodedAs (f : Word → Instr) :
    (OpcodeCell.word f).EncodedAs opcode ↔ ∀ w, encode (f w) = encodeWord opcode w :=
  ⟨fun h w => h _ _ (.word f w), by rintro h _ _ ⟨⟩; exact h _⟩

end encodedAs

/-- Each cell of the map stands at the opcode that encodes its instructions (R103). -/
theorem opcodeRows_encodedAs :
    ∀ r ∈ opcodeRows.zipIdx, ∀ c ∈ r.1.zipIdx (16 * r.2), c.1.EncodedAs (BitVec.ofNat 8 c.2) := by
  simp [-Prod.forall, opcodeRows, opcodeRow0, opcodeRow1, opcodeRow2, opcodeRow3, opcodeRow4, opcodeRow5, opcodeRow6,
    opcodeRow7, opcodeRow8, opcodeRow9, opcodeRowA, opcodeRowB, opcodeRowC, opcodeRowD, opcodeRowE, opcodeRowF, encode]

/-- What the cell of an opcode makes is encoded as that opcode: the cell stands at column opcode[3:0] of row opcode[7:4]. -/
theorem opcodeCell_encodedAs (opcode : Byte) : (opcodeCell opcode).EncodedAs opcode := by
  unfold opcodeCell
  cases hr : opcodeRows[opcode.toNat / 16]? with
  | none => simp
  | some row =>
    cases hc : row[opcode.toNat % 16]? with
    | none => simp [hc]
    | some cell =>
      have hrow := List.mk_mem_zipIdx_iff_getElem?.2 hr
      have hcell := (List.mk_add_mem_zipIdx_iff_getElem? (k := 16 * (opcode.toNat / 16))).2 hc
      have h := opcodeRows_encodedAs _ hrow _ hcell
      simpa [hc, Nat.div_add_mod] using h

/-- Settles O2: the bytes read are what the opcode's cell makes the instruction of, and they are its encoding. -/
theorem encodeOfDecode : Obligations.EncodeOfDecode := by
  intro bytes i rest h
  obtain ⟨opcode, operands, rfl, hm⟩ := makes_of_decode h
  rw [opcodeCell_encodedAs opcode operands i hm]

/-! ### The unassigned opcodes -/

/-- Decoding refuses an opcode as undefined exactly at an unassigned cell, whatever follows. -/
theorem decode_undefined_iff (opcode : Byte) (rest : List Byte) :
    decode (opcode :: rest) = .error (.undefinedOpcode opcode) ↔ opcodeCell opcode = .unassigned := by
  cases hc : opcodeCell opcode with
  | unassigned => simp [decode, hc]
  | inh i => simp [decode, hc]
  | byte f => rcases rest with _ | ⟨b, rest⟩ <;> simp [decode, hc]
  | word f => rcases rest with _ | ⟨hi, _ | ⟨lo, rest⟩⟩ <;> simp [decode, hc]

/-- The cell is unassigned, as a Boolean that `decide` can evaluate for every opcode. -/
def OpcodeCell.isUnassigned : OpcodeCell → Bool
  | .unassigned => true
  | .inh _ | .byte _ | .word _ => false

theorem OpcodeCell.isUnassigned_iff (cell : OpcodeCell) : cell.isUnassigned = true ↔ cell = .unassigned := by
  cases cell <;> simp [isUnassigned]

/-- Settles O3: the bytes that follow play no part, so that a look at the 256 cells decides. -/
theorem unassignedOpcodes : Obligations.UnassignedOpcodes := by
  intro opcode rest
  rw [decode_undefined_iff, ← OpcodeCell.isUnassigned_iff]
  revert opcode
  decide

/-- Settles O4: the words of the listings are the encodings of their instructions. -/
theorem listingWordsDecode : Obligations.ListingWordsDecode :=
  ⟨decodeOfEncode .clc [], decodeOfEncode (.ldabImm 8) [], decodeOfEncode (.ldxImm 0x0102) [],
    decodeOfEncode (.subaIdx 0) [], decodeOfEncode (.adcaIdx 15) [], decodeOfEncode (.stxExt 0x0100) [],
    decodeOfEncode (.jsrExt 0x1000) [], decodeOfEncode (.bne 0xF5) [], decodeOfEncode (.bra 0xFD) [],
    decodeOfEncode (.ldaaDir 0x85) []⟩

end Sys2Proof

namespace Sys2Proof.Machine

/-! ### The fetch of an unassigned opcode -/

/-- After an unassigned opcode in memory the fetch reads nothing more (R112). -/
theorem State.fetch_of_unassigned (s : State) {b : Byte} (hs : s.sys.steals = []) (h : s.sys.cell s.cpu.pc = some b)
    (hc : opcodeCell b = .unassigned) : s.fetch.1 = [b] := by
  have hread : s.clearNmi.read s.cpu.pc = (b, s.clearNmi) := s.clearNmi.read_of_cell _ b hs h
  have hcount : fetchCount b = 1 := by simp [fetchCount, hc]
  simp only [State.fetch, State.fetchBytes, State.clearNmi_cpu, hread, hcount]

/-- Settles O6: the boundary goes on to an instruction, whose fetch finds the opcode after the E pulses. -/
theorem undefinedOpcodeStops : Obligations.UndefinedOpcodeStops := by
  intro s b hu hr hn hi hb hd
  rw [step_of_undisturbed hu hr hn hi]
  obtain ⟨_, _, _, _, _, _, hsteals⟩ := hu
  have hcell := (s.clearHoldoffs_pulseE_cell s.cpu.pc).trans hb
  have hfetch := State.fetch_of_unassigned s.clearHoldoffs.pulseE hsteals hcell ((decode_undefined_iff b []).1 hd)
  rw [State.runInstruction, hfetch, hd]
  rfl

/-! ### Branches -/

/-- All that a branch instruction can do: PC goes to the target or past the two bytes (R109, R310). -/
theorem exec_branch_cpu (c : Cond) (rel : Byte) (s : State) :
    ∃ t, exec (.branch c rel) s = .next t ∧
      t.cpu = { s.cpu with
        pc := if condHolds c s.cpu.ccr then s.cpu.pc + 2 + rel.signExtend 16 else s.cpu.pc + 2 } ∧
      RegistersOnly (.branch c rel) s t := by
  have hnext : s.next (.branch c rel) = s.cpu.pc + 2 := by cases c <;> rfl
  refine ⟨_, exec_branch s c rel, ?_⟩
  rw [State.branch_spec, State.past_cpu, hnext]
  exact ⟨rfl, ⟨rfl, rfl⟩, rfl⟩

/-- What a branch asks of the flags, test by test (R311 to R325). -/
def condTest (c : Cond) (f : Ccr) : Prop :=
  match c with
  | .always => True
  | .hi => f.c = false ∧ f.z = false
  | .ls => f.c = true ∨ f.z = true
  | .cc => f.c = false
  | .cs => f.c = true
  | .ne => f.z = false
  | .eq => f.z = true
  | .vc => f.v = false
  | .vs => f.v = true
  | .pl => f.n = false
  | .mi => f.n = true
  | .ge => f.n = f.v
  | .lt => f.n ≠ f.v
  | .gt => f.z = false ∧ f.n = f.v
  | .le => f.z = true ∨ f.n ≠ f.v

/-- The Boolean test of the model is the condition on the flags. -/
theorem condHolds_iff (c : Cond) (f : Ccr) : condHolds c f = true ↔ condTest c f := by
  cases c <;> simp [condHolds, condTest]

/-- Settles O32: a branch goes to its target exactly if its test holds. -/
theorem branchResult : Obligations.BranchResult := by
  intro rel s f gives
  have branches (c : Cond) : gives c (condTest c f) := by
    obtain ⟨t, hexec, hcpu, honly⟩ := exec_branch_cpu c rel s
    refine ⟨t, hexec, fun h => ?_, fun h => ?_, honly⟩
    · rw [hcpu, if_pos ((condHolds_iff c f).2 h)]
    · rw [hcpu, if_neg ((condHolds_iff c f).not.2 h)]
  exact ⟨branches .always, branches .cc, branches .cs, branches .eq, branches .ne, branches .vc, branches .vs,
    branches .mi, branches .pl, branches .ge, branches .lt, branches .gt, branches .le, branches .hi, branches .ls⟩

/-- An offset of -127 to +127 keeps its value through the branch's byte and its sign extension. -/
theorem signExtend_ofInt_8_16 {d : Int} (hlow : -127 ≤ d) (hhigh : d ≤ 127) :
    (BitVec.ofInt 8 d).signExtend 16 = BitVec.ofInt 16 d := by
  have hd : (BitVec.ofInt 8 d).toInt = d := by
    rw [BitVec.toInt_ofInt, Int.bmod_eq_of_le] <;> omega
  rw [BitVec.signExtend, hd]

/-- The address after a branch at `location` and the assembled offset add up to `v` (R109), in 16 bits. -/
theorem branch_target_ofInt {v location : Int} (hlow : -127 ≤ v - location - 2) (hhigh : v - location - 2 ≤ 127) :
    BitVec.ofInt 16 location + 2 + (BitVec.ofInt 8 (v - (location + 2))).signExtend 16 = BitVec.ofInt 16 v := by
  rw [signExtend_ofInt_8_16 (by omega) (by omega)]
  calc BitVec.ofInt 16 location + 2 + BitVec.ofInt 16 (v - (location + 2))
      = BitVec.ofInt 16 (location + 2 + (v - (location + 2))) := by rw [BitVec.ofInt_add, BitVec.ofInt_add]; rfl
    _ = BitVec.ofInt 16 v := by rw [add_sub_cancel]

/-- Settles O33: an offset in range is the one that leads to `v`, and the range is the assembler's own test. -/
theorem assembledBranchTarget : Obligations.AssembledBranchTarget := by
  intro c v location s hpc hholds assembled
  have hassembled : assembled = (asmBranch v location).map (Instr.branch c) := rfl
  constructor
  · rintro ⟨hlow, hhigh⟩
    have hoffset : asmBranch v location = .ok (BitVec.ofInt 8 (v - (location + 2))) := if_pos (by omega)
    obtain ⟨t, hexec, hcpu, _⟩ := exec_branch_cpu c (BitVec.ofInt 8 (v - (location + 2))) s
    refine ⟨_, t, by rw [hassembled, hoffset]; rfl, hexec, ?_⟩
    rw [hcpu, if_pos hholds, hpc]
    exact branch_target_ofInt hlow hhigh
  · intro hrange
    have hoffset : asmBranch v location = .error .branchOutOfRange := if_neg (by omega)
    rw [hassembled, hoffset]
    rfl

end Sys2Proof.Machine

/-! PROOF. The statements of 40_ccr_ops.md: the instructions that set or clear one flag (R141 to R146), and the two that move
the flags from and to A (R147, R148). -/

namespace Sys2Proof.Machine

/-- An instruction of one byte is followed by the next address (R25). -/
theorem State.next_of_encode {s : State} {i : Instr} {opcode : Byte} (h : encode i = [opcode]) :
    s.next i = s.cpu.pc + 1 := by
  rw [State.next, Instr.length, h]
  rfl

/-- An instruction that only replaces the registers, those of the machine past its bytes, touches nothing else. -/
theorem registersOnly_of_exec {i : Instr} {s : State} {p : Cpu} (h : exec i s = .next ((s.past i).setCpu p)) :
    ∃ t, exec i s = .next t ∧ t.cpu = p ∧ RegistersOnly i s t :=
  ⟨_, h, rfl, ⟨rfl, rfl⟩, rfl⟩

/-! ### One flag -/

/-- Settles O40: each of the five replaces the flags past its one byte. -/
theorem singleFlag : Obligations.SingleFlag := by
  intro s f gives
  have gives_of_exec {i : Instr} {opcode : Byte} {g : Ccr} (hcode : encode i = [opcode])
      (hexec : exec i s = .next ((s.past i).setCcr g)) : gives i opcode g := by
    refine ⟨hcode, ?_⟩
    rw [← State.next_of_encode hcode]
    exact registersOnly_of_exec hexec
  exact ⟨gives_of_exec rfl rfl, gives_of_exec rfl rfl, gives_of_exec rfl rfl, gives_of_exec rfl rfl,
    gives_of_exec rfl rfl⟩

/-- CLI looks at the opcode before it, whose bit 0 its own fetch replaces (R368). -/
theorem exec_cli (s : State) :
    exec .cli s =
      .next { (s.past .cli).setCcr { s.cpu.ccr with i := false } with
        ctl := { (s.past .cli).ctl with irqHoldoff := s.ctl.irqHoldoff || (s.cpu.ccr.i && s.ctl.prevOpcodeLsb) } } :=
  rfl

/-- Settles O41, field by field of the state CLI answers. -/
theorem clearMask : Obligations.ClearMask := fun s => ⟨_, exec_cli s, rfl, rfl, rfl, rfl⟩

/-! ### All flags -/

/-- The byte image of the CCR with each flag shifted to its place and bits 7 and 6 one (R27, log 14), checked for the 64
settings of the flags. -/
theorem Ccr.toByte_eq_or (f : Ccr) :
    f.toByte =
      0xC0 ||| (BitVec.ofBool f.h).zeroExtend 8 <<< 5 ||| (BitVec.ofBool f.i).zeroExtend 8 <<< 4 |||
        (BitVec.ofBool f.n).zeroExtend 8 <<< 3 ||| (BitVec.ofBool f.z).zeroExtend 8 <<< 2 |||
        (BitVec.ofBool f.v).zeroExtend 8 <<< 1 ||| (BitVec.ofBool f.c).zeroExtend 8 := by
  obtain ⟨h, i, n, z, v, c⟩ := f
  revert h i n z v c
  decide

theorem exec_tpa (s : State) :
    exec .tpa s = .next ((s.past .tpa).setCpu { s.cpu with a := s.cpu.ccr.toByte, pc := s.next .tpa }) := rfl

theorem exec_tap (s : State) : exec .tap s = .next ((s.past .tap).tapFlags (Ccr.ofByte s.cpu.a)) := rfl

section tapFlags
variable {s : State} {f : Ccr}

/-- A TAP that takes I from 1 to 0 draws whether the IRQ test waits (R147, R379, log 12). -/
theorem State.tapFlags_of_unmasks (h : s.cpu.ccr.i = true ∧ f.i = false) :
    s.tapFlags f =
      { s.setCcr f with
        ctl := { s.ctl with irqHoldoff := s.ctl.irqHoldoff || Config.tapDelay s.sys.draws }
        sys := { s.sys with draws := s.sys.draws + 1 } } :=
  if_pos (by simp [h])

theorem State.tapFlags_of_not_unmasks (h : ¬(s.cpu.ccr.i = true ∧ f.i = false)) : s.tapFlags f = s.setCcr f :=
  if_neg (by simpa using h)

end tapFlags

/-- What every TAP does, whether or not it draws. -/
theorem State.tapFlags_frame (s : State) (f : Ccr) :
    (s.tapFlags f).cpu = { s.cpu with ccr := f } ∧ (s.tapFlags f).env = s.env ∧ SameBytes s.sys (s.tapFlags f).sys := by
  by_cases h : s.cpu.ccr.i = true ∧ f.i = false
  · rw [State.tapFlags_of_unmasks h]
    exact ⟨rfl, rfl, fun _ => System.cell_congr _ _ rfl rfl rfl⟩
  · rw [State.tapFlags_of_not_unmasks h]
    exact ⟨rfl, rfl, fun _ _ => rfl⟩

/-- Settles O42: TPA by the places of the flags in the byte image; TAP by whether it takes I from 1 to 0. -/
theorem transferFlags : Obligations.TransferFlags := by
  intro s
  constructor
  · rw [← s.cpu.ccr.toByte_eq_or]
    exact registersOnly_of_exec (exec_tpa s)
  · obtain ⟨hcpu, henv, hbytes⟩ := (s.past .tap).tapFlags_frame (Ccr.ofByte s.cpu.a)
    refine ⟨_, exec_tap s, hcpu, henv, hbytes, fun h => ?_, fun h => ?_⟩
    · rw [State.tapFlags_of_unmasks h]
      exact ⟨rfl, rfl⟩
    · rw [State.tapFlags_of_not_unmasks h]
      exact ⟨rfl, rfl⟩

end Sys2Proof.Machine

/-! PROOF. The statements of 41_arithmetic.md (R160 to R178), and the single-operand group beside it: NEG, COM, DEC and INC on
an accumulator and on memory, CLR and TST on an accumulator (R174 to R176, R203 to R205, R217, R218, R230 to R239). -/

namespace Sys2Proof.Machine

/-! ### Result and flags, as arithmetic -/

section alu
variable (a m : Byte) (f : Ccr)

theorem Ccr.setNZ_eq (r : Byte) : f.setNZ r = { f with n := r.msb, z := decide (r = 0) } := by
  rw [msb_byte]
  rfl

/-- An addition without carry wraps; V and C tell whether the signed and the unsigned sum fit (R160). -/
theorem aluAdd_eq :
    aluAdd a m f =
      (a + m, { f with
        h := decide (15 < a.toNat % 16 + m.toNat % 16)
        n := (a + m).msb
        z := decide (a + m = 0)
        v := decide ((a + m).toInt ≠ a.toInt + m.toInt)
        c := decide ((a + m).toNat ≠ a.toNat + m.toNat) }) := by
  have hsum : BitVec.ofNat 8 (a.toNat + m.toNat) = a + m := by simp [BitVec.ofNat_add]
  simpa [aluAdd, hsum] using add8_eq a m false f

/-- A subtraction without borrow: Z tells equality, C the unsigned order (R161). -/
theorem aluSub_eq :
    aluSub a m f =
      (a - m, { f with
        n := (a - m).msb
        z := decide (a = m)
        v := decide ((a - m).toInt ≠ a.toInt - m.toInt)
        c := decide (a.toNat < m.toNat) }) := by
  have hzero : a - m = 0#8 ↔ a = m := sub_eq_zero
  simpa [aluSub, hzero] using sub8_eq a m false f

/-- ADD and ADC are one addition, of the carry that the instruction takes in (R164, R167). -/
theorem dualAlu_add (withCarry : Bool) :
    dualAlu (if withCarry then .adc else .add) a m f = add8 a m (withCarry && f.c) f := by
  cases withCarry <;> rfl

/-- SUB and SBC are one subtraction, of the borrow that the instruction takes in (R169, R172). -/
theorem dualAlu_sub (withCarry : Bool) :
    dualAlu (if withCarry then .sbc else .sub) a m f = sub8 a m (withCarry && f.c) f := by
  cases withCarry <;> rfl

/-- The one byte whose negative does not fit is 80: +128 is no signed byte (R174). -/
theorem neg_toInt_ne_iff : (-m).toInt ≠ (0 : Byte).toInt - m.toInt ↔ m = 0x80 := by
  have hm := m.isLt
  have hneg : (-m).toNat = (256 - m.toNat) % 256 := by bv_omega
  have heq : m = 0x80 ↔ m.toNat = 128 := by bv_omega
  rw [heq, toInt_byte, toInt_byte m, hneg, show (0 : Byte).toInt = 0 from rfl]
  split <;> split <;> omega

/-- NEG subtracts from zero (R174 to R176). -/
theorem aluNeg_eq :
    aluNeg m f =
      (-m, { f with n := (-m).msb, z := decide (m = 0), v := decide (m = 0x80), c := decide (m ≠ 0) }) := by
  have hborrow : (0 : Byte).toNat < m.toNat ↔ m ≠ 0 := by bv_omega
  have hsub : aluNeg m f = aluSub 0 m f := rfl
  simp only [hsub, aluSub_eq, neg_toInt_ne_iff, hborrow, zero_sub, eq_comm (a := (0 : Byte))]

/-- COM sets C (R203 to R205). -/
theorem aluCom_eq : aluCom m f = (~~~m, { f with n := !m.msb, z := decide (m = 0xFF), v := false, c := true }) := by
  have hsign : (~~~m).msb = !m.msb := by simp
  have hzero : ~~~m = 0 ↔ m = 0xFF := by bv_omega
  simp only [aluCom, logicNZ, Ccr.setNZ_eq, hsign, hzero]

/-- DEC gives zero from 01 and keeps C (R234 to R236). -/
theorem aluDec_eq :
    aluDec m f = (m - 1, { f with n := (m - 1).msb, z := decide (m = 1), v := decide (m = 0x80) }) := by
  simp only [aluDec, Ccr.setNZ_eq, sub_eq_zero]
  rfl

/-- INC gives zero from FF and keeps C (R237 to R239). -/
theorem aluInc_eq :
    aluInc m f = (m + 1, { f with n := (m + 1).msb, z := decide (m = 0xFF), v := decide (m = 0x7F) }) := by
  have hzero : m + 1 = 0 ↔ m = 0xFF := by bv_omega
  simp only [aluInc, Ccr.setNZ_eq, hzero]
  rfl

end alu

/-! ### Dual-operand operations with a destination -/

/-- An instruction that only reads its operand changes no byte of memory. -/
theorem ReadsOnly.of_load8 {i : Instr} {s t : State} {o : Operand8} (ho : Ordinary i s t)
    (h : t.sys = (s.load8 o).2.sys) : ReadsOnly i s (s.load8 o).2.sys t := by
  refine ⟨ho, h, fun hs b => ?_⟩
  rw [h]
  exact s.load8_cell o b hs

@[simp] theorem Cpu.acc_pc (p : Cpu) (w : Word) (r : Acc) : ({ p with pc := w } : Cpu).acc r = p.acc r := by
  cases r <;> rfl

/-- An operation with an accumulator destination, past its instruction. -/
theorem State.past_accOp (s : State) (i : Instr) (f : Byte → Byte → Ccr → Alu) (r : Acc) (o : Operand8) :
    ((s.past i).accOp f r o).cpu =
        ({ s.cpu with pc := s.next i, ccr := (f (s.cpu.acc r) (s.load8 o).1 s.cpu.ccr).2 } : Cpu).setAcc r
          (f (s.cpu.acc r) (s.load8 o).1 s.cpu.ccr).1 ∧
      ReadsOnly i s (s.load8 o).2.sys ((s.past i).accOp f r o) := by
  obtain ⟨hcpu, hsys, hctl, henv⟩ := (s.past i).accOp_spec f r o
  rw [State.past, State.advance_load8_sys] at hsys
  refine ⟨?_, .of_load8 ⟨hctl, henv⟩ hsys⟩
  rw [hcpu, State.past_cpu, Cpu.acc_pc, State.past, State.advance_load8_fst]

/-- All that a dual-operand instruction with an accumulator destination can do. -/
theorem exec_dual_spec (s : State) (op : DualOp) (r : Acc) (o : Operand8) (hcmp : op ≠ .cmp) (hbit : op ≠ .bit) :
    ∃ t, exec (.dual op r o) s = .next t ∧
      t.cpu = ({ s.cpu with
          pc := s.next (.dual op r o)
          ccr := (dualAlu op (s.cpu.acc r) (s.load8 o).1 s.cpu.ccr).2 } : Cpu).setAcc r
            (dualAlu op (s.cpu.acc r) (s.load8 o).1 s.cpu.ccr).1 ∧
      ReadsOnly (.dual op r o) s (s.load8 o).2.sys t := by
  have hdual : ∀ u : State, u.dual op r o = u.accOp (dualAlu op) r o := by
    intro u
    cases op with
    | cmp => exact absurd rfl hcmp
    | bit => exact absurd rfl hbit
    | sub | sbc | and | lda | eor | adc | ora | add => rfl
  refine ⟨_, exec_dual s op r o, ?_⟩
  rw [hdual]
  exact s.past_accOp _ _ r o

/-- Settles O8: ADD and ADC are one addition past the instruction, with its flags as arithmetic. -/
theorem addResult : Obligations.AddResult := by
  intro withCarry r o s i a m cin v
  have h := exec_dual_spec s (if withCarry then .adc else .add) r o (by cases withCarry <;> simp)
    (by cases withCarry <;> simp)
  rw [dualAlu_add, add8_eq] at h
  exact h

/-- Settles O10: SUB and SBC are one subtraction past the instruction, with its flags as arithmetic. -/
theorem subtractResult : Obligations.SubtractResult := by
  intro withCarry r o s i a m bin v
  have h := exec_dual_spec s (if withCarry then .sbc else .sub) r o (by cases withCarry <;> simp)
    (by cases withCarry <;> simp)
  rw [dualAlu_sub, sub8_eq] at h
  exact h

/-! ### Between the accumulators -/

/-- Settles O9: ABA is the addition without carry of A and B. -/
theorem addAccumulators : Obligations.AddAccumulators := by
  intro s a b
  have hexec : exec .aba s = .next ((s.past .aba).setCpu ((s.past .aba).cpu.withAlu (aluAdd a b s.cpu.ccr))) := rfl
  rw [aluAdd_eq] at hexec
  exact ⟨⟨rfl, rfl⟩, registersOnly_of_exec hexec⟩

/-- Settles O11: SBA and CBA make one subtraction, of which CBA keeps the flags alone. -/
theorem subtractAccumulators : Obligations.SubtractAccumulators := by
  intro s a b flags
  have hsba : exec .sba s = .next ((s.past .sba).setCpu ((s.past .sba).cpu.withAlu (aluSub a b s.cpu.ccr))) := rfl
  have hcba : exec .cba s =
      .next ((s.past .cba).setCpu { (s.past .cba).cpu with ccr := (aluSub a b s.cpu.ccr).2 }) := rfl
  rw [aluSub_eq] at hsba hcba
  exact ⟨⟨rfl, rfl⟩, ⟨rfl, rfl⟩, registersOnly_of_exec hsba, registersOnly_of_exec hcba⟩

/-! ### Single-operand operations -/

theorem State.next_rmwAcc (s : State) (op : RmwOp) (r : Acc) : s.next (.rmwAcc op r) = s.cpu.pc + 1 := by
  cases op <;> cases r <;> rfl

/-- All that the accumulator form of a single-operand instruction can do. -/
theorem exec_rmwAcc_spec (s : State) (op : RmwOp) (r : Acc) :
    ∃ t, exec (.rmwAcc op r) s = .next t ∧
      t.cpu = ({ s.cpu with pc := s.cpu.pc + 1, ccr := (rmwAlu op (s.cpu.acc r) s.cpu.ccr).2 } : Cpu).setAcc r
        (rmwAlu op (s.cpu.acc r) s.cpu.ccr).1 ∧
      RegistersOnly (.rmwAcc op r) s t := by
  have h := exec_rmwAcc s op r
  rw [State.accUnary, State.past_cpu, Cpu.acc_pc, State.next_rmwAcc] at h
  exact registersOnly_of_exec h

/-- Settles O17: each of the six is its result-and-flag function, past its one byte. -/
theorem unaryAccumulator : Obligations.UnaryAccumulator := by
  intro r s m f gives
  have gives_of_alu {op : RmwOp} {v : Byte} {g : Ccr} (h : rmwAlu op m f = (v, g)) : gives op v g := by
    have hspec := exec_rmwAcc_spec s op r
    rw [h] at hspec
    exact hspec
  exact ⟨gives_of_alu (aluNeg_eq m f), gives_of_alu (aluCom_eq m f), gives_of_alu (aluDec_eq m f),
    gives_of_alu (aluInc_eq m f), gives_of_alu rfl, gives_of_alu (Prod.ext rfl (aluTst_flags m f))⟩

/-- A read of an address and then a store there: the address holds the byte, and the bytes of other regions stay. -/
theorem StoresByte.of_read_write {i : Instr} {s t : State} {a : Word} {v : Byte} (ho : Ordinary i s t)
    (h : t.sys = (s.sys.read a).2.write a v) : StoresByte i s (s.sys.read a).2 a v t := by
  refine ⟨ho, h, ?_, ?_⟩
  · intro hs b hb
    have hother : (s.sys.read a).2.region b ≠ (s.sys.read a).2.region a := by simpa using hb a (by simp)
    rw [h, System.write_cell_other _ _ _ _ (s.sys.read_steals a hs) hother, s.sys.read_cell a b hs]
  · intro c hw hcut hs hc
    have hram : (s.sys.read a).2.region a = .ram c := by rw [System.read_region, hc]
    rw [h]
    exact System.write_cell_self _ _ _ _ c (s.sys.read_ram_wf a hw) (by rw [System.read_resCut, hcut])
      (s.sys.read_steals a hs) hram hram

/-- All that the memory form of a single-operand instruction with one read and one write can do. -/
theorem exec_rmwMem_spec (s : State) (op : RmwOp) (p : Ptr) (htst : op ≠ .tst) (hclr : op ≠ .clr) :
    ∃ t, exec (.rmwMem op p) s = .next t ∧
      t.cpu = { s.cpu with
        pc := s.next (.rmwMem op p), ccr := (rmwAlu op (s.sys.read (s.cpu.ea p.toEa)).1 s.cpu.ccr).2 } ∧
      StoresByte (.rmwMem op p) s (s.sys.read (s.cpu.ea p.toEa)).2 (s.cpu.ea p.toEa)
        (rmwAlu op (s.sys.read (s.cpu.ea p.toEa)).1 s.cpu.ccr).1 t := by
  have hunary : ∀ u : State, u.rmwMem op p = u.memUnary (rmwAlu op) p.toEa := by
    intro u
    cases op with
    | tst => exact absurd rfl htst
    | clr => exact absurd rfl hclr
    | neg | com | lsr | ror | asr | asl | rol | dec | inc => rfl
  obtain ⟨hcpu, hsys, hctl, henv⟩ := (s.past (.rmwMem op p)).memUnary_spec (rmwAlu op) p.toEa
  rw [State.past_cpu, Cpu.ea_pc, State.past_sys] at hcpu hsys
  refine ⟨_, exec_rmwMem s op p, ?_⟩
  rw [hunary]
  exact ⟨hcpu, .of_read_write ⟨hctl, henv⟩ hsys⟩

/-- Settles O19: each of the four is its result-and-flag function, between one read and one write of its address. -/
theorem unaryMemory : Obligations.UnaryMemory := by
  intro p s a m f gives
  have gives_of_alu {op : RmwOp} {v : Byte} {g : Ccr} (htst : op ≠ .tst) (hclr : op ≠ .clr)
      (h : rmwAlu op m f = (v, g)) : gives op v g := by
    have hspec := exec_rmwMem_spec s op p htst hclr
    rw [h] at hspec
    exact hspec
  exact ⟨gives_of_alu nofun nofun (aluNeg_eq m f), gives_of_alu nofun nofun (aluCom_eq m f),
    gives_of_alu nofun nofun (aluDec_eq m f), gives_of_alu nofun nofun (aluInc_eq m f)⟩

/-! ### Decimal adjust -/

/-- DAA as one sum: where both half-bytes ask, the correction is 66 (R177). -/
theorem aluDaa_eq (v : Bool) (a : Byte) (f : Ccr) :
    aluDaa v a f =
      (let r := BitVec.ofNat 8 (a.toNat + (if daaHigh a f then 0x60 else 0) + if daaLow a f then 0x06 else 0)
      (r, { f with n := r.msb, z := decide (r = 0), v := v, c := f.c || daaHigh a f })) := by
  have hsum : a + ((if daaHigh a f then 0x60 else 0) + if daaLow a f then 0x06 else 0) =
      BitVec.ofNat 8 (a.toNat + (if daaHigh a f then 0x60 else 0) + if daaLow a f then 0x06 else 0) := by
    split <;> split <;> bv_omega
  simp only [aluDaa, Ccr.setNZ_eq, hsum]

theorem exec_daa (s : State) :
    exec .daa s = .next { s.past .daa with
      cpu := (s.past .daa).cpu.withAlu (aluDaa (Config.daaOverflow s.sys.draws) s.cpu.a s.cpu.ccr)
      sys := { s.sys with draws := s.sys.draws + 1 } } := rfl

/-- Settles O12: DAA is its correction past its one byte; its draw touches no memory. -/
theorem decimalAdjust : Obligations.DecimalAdjust := by
  intro s lo hi low high v
  refine ⟨_, exec_daa s, ?_, ⟨rfl, rfl⟩, rfl, fun _ => System.cell_congr _ _ rfl rfl rfl⟩
  rw [aluDaa_eq]
  rfl

section decimal
variable {tens ones : Nat} (htens : tens ≤ 18) (hones : ones ≤ 19)
include hones

/-- In a binary sum of packed decimal bytes, whose digits sum to `tens` and `ones`, the lower half-byte exceeds 9 or has
carried exactly when the lower digits' sum exceeds 9. -/
theorem decimal_low_iff : (9 < (16 * tens + ones) % 256 % 16 ∨ 15 < ones) ↔ 10 ≤ ones := by omega

include htens

/-- The upper half-byte asks for a correction, counting the carry that the lower one is about to send it, exactly when the
decimal sum reaches 100. -/
theorem decimal_high_iff :
    (9 < (16 * tens + ones) % 256 / 16 ∨ 255 < 16 * tens + ones ∨
        9 < (16 * tens + ones) % 256 % 16 ∧ (16 * tens + ones) % 256 / 16 = 9) ↔ 100 ≤ 10 * tens + ones := by
  omega

/-- Adding 6 to a half-byte turns its carry at 10 into a carry at 16: with `k` carried out of the lower digit and `h` out of
the upper one, the corrected binary sum is 256 for each `h` and the two digits that stay. -/
theorem decimal_corrected :
    ((16 * tens + ones) % 256 + (if 100 ≤ 10 * tens + ones then 0x60 else 0) + if 10 ≤ ones then 0x06 else 0) % 256 =
      16 * ((10 * tens + ones) % 100 / 10) + (10 * tens + ones) % 10 := by
  obtain ⟨k, o, hk, ho⟩ : ∃ k o, ones = 10 * k + o ∧ o < 10 := ⟨ones / 10, ones % 10, by omega, by omega⟩
  obtain ⟨h, t, hh, ht⟩ : ∃ h t, tens + k = 10 * h + t ∧ t < 10 :=
    ⟨(tens + k) / 10, (tens + k) % 10, by omega, by omega⟩
  have hlow : (if 10 ≤ ones then 0x06 else 0) = 6 * k := by split <;> omega
  have hhigh : (if 100 ≤ 10 * tens + ones then 0x60 else 0) = 96 * h := by split <;> omega
  have hupper : (10 * tens + ones) % 100 / 10 = t := by omega
  have hlower : (10 * tens + ones) % 10 = o := by omega
  have hbinary : 16 * tens + ones + 96 * h + 6 * k = 256 * h + (16 * t + o) := by omega
  rw [hlow, hhigh, hupper, hlower]
  omega

/-- DAA, where A, H and C hold what a binary sum of packed decimal bytes left there, makes it the decimal sum. -/
theorem aluDaa_of_binary {a : Byte} {f : Ccr} (v : Bool) (ha : a.toNat = (16 * tens + ones) % 256)
    (hh : f.h = decide (15 < ones)) (hc : f.c = decide (255 < 16 * tens + ones)) :
    (aluDaa v a f).1 = BitVec.ofNat 8 (16 * ((10 * tens + ones) % 100 / 10) + (10 * tens + ones) % 10) ∧
      ((aluDaa v a f).2.c = true ↔ 100 ≤ 10 * tens + ones) := by
  have hlow : daaLow a f = decide (10 ≤ ones) := by
    simp only [daaLow, ha, hh, ← decimal_low_iff (tens := tens) hones, Bool.decide_or]
  have hhigh : daaHigh a f = decide (100 ≤ 10 * tens + ones) := by
    simp only [daaHigh, ha, hc, ← decimal_high_iff htens hones, Bool.decide_or, Bool.decide_and, Bool.or_assoc]
    rfl
  rw [aluDaa_eq]
  constructor
  · apply BitVec.eq_of_toNat_eq
    simp only [ha, hlow, hhigh, decide_eq_true_eq, BitVec.toNat_ofNat, decimal_corrected htens hones]
    omega
  · simp only [hhigh, hc, Bool.or_eq_true, decide_eq_true_eq]
    omega

end decimal

/-- DAA after any addition of packed decimal bytes (R178). -/
theorem aluDaa_add8 {x1 x0 y1 y0 : Nat} (hx1 : x1 < 10) (hx0 : x0 < 10) (hy1 : y1 < 10) (hy0 : y0 < 10)
    (cin v : Bool) (f : Ccr) :
    let q := add8 (BitVec.ofNat 8 (16 * x1 + x0)) (BitVec.ofNat 8 (16 * y1 + y0)) cin f
    let sum := 10 * x1 + x0 + (10 * y1 + y0) + cin.toNat
    (aluDaa v q.1 q.2).1 = BitVec.ofNat 8 (16 * (sum % 100 / 10) + sum % 10) ∧
      ((aluDaa v q.1 q.2).2.c = true ↔ 100 ≤ sum) := by
  intro q sum
  have hcin := Bool.toNat_le cin
  have hdecimal : sum = 10 * (x1 + y1) + (x0 + y0 + cin.toNat) := by omega
  have hbinary : (16 * x1 + x0) % 256 + (16 * y1 + y0) % 256 + cin.toNat =
      16 * (x1 + y1) + (x0 + y0 + cin.toNat) := by omega
  have hhalf : (16 * x1 + x0) % 256 % 16 + (16 * y1 + y0) % 256 % 16 + cin.toNat = x0 + y0 + cin.toNat := by omega
  rw [hdecimal]
  apply aluDaa_of_binary (by omega) (by omega) v <;> simp only [q, add8, BitVec.toNat_ofNat]
  · rw [← hbinary]
  · rw [← hhalf]
  · rw [← hbinary]

/-- Settles O13: the flags ADCA leaves are those of its addition, and DAA follows that addition. -/
theorem decimalSum : Obligations.DecimalSum := by
  intro s t u x1 x0 y1 y0 hx1 hx0 hy1 hy0 ha hadc hdaa sum
  have hexec : exec (.adcaImm (BitVec.ofNat 8 (16 * y1 + y0))) s = _ := exec_dual s .adc .a (.imm _)
  rw [hexec] at hadc
  cases hadc
  rw [exec_daa] at hdaa
  cases hdaa
  have h := aluDaa_add8 hx1 hx0 hy1 hy0 s.cpu.ccr.c (Config.daaOverflow s.sys.draws) s.cpu.ccr
  rw [← ha] at h
  exact h

end Sys2Proof.Machine

/-! PROOF. The statements of 42_logic_test.md: the logic operations and LDA (R200 to R202, R206 to R209, R240, R241),
and BIT and CMP, which discard the result (R210 to R213). -/

namespace Sys2Proof.Machine

/-- N and Z follow the result and V is reset; the other flags stay (R200). -/
theorem logicNZ_eq (v : Byte) (f : Ccr) : logicNZ v f = { f with n := v.msb, z := decide (v = 0), v := false } := by
  rw [logicNZ, Ccr.setNZ_eq]

/-- A dual-operand instruction with a destination, whose flags are those of a logic operation (R200). -/
theorem exec_dual_of_logic (s : State) {op : DualOp} (r : Acc) (o : Operand8) {v : Byte} (hcmp : op ≠ .cmp)
    (hbit : op ≠ .bit)
    (h : dualAlu op (s.cpu.acc r) (s.load8 o).1 s.cpu.ccr = (v, logicNZ v s.cpu.ccr)) :
    ∃ t, exec (.dual op r o) s = .next t ∧
      t.cpu = ({ s.cpu with
          pc := s.next (.dual op r o)
          ccr := { s.cpu.ccr with n := v.msb, z := decide (v = 0), v := false } } : Cpu).setAcc r v ∧
      ReadsOnly (.dual op r o) s (s.load8 o).2.sys t := by
  have hspec := exec_dual_spec s op r o hcmp hbit
  rw [h, logicNZ_eq] at hspec
  exact hspec

/-- Settles O14: each of the four gives its result with the flags of a logic operation. -/
theorem logicAndLoad : Obligations.LogicAndLoad := by
  intro r o s a m gives
  exact ⟨exec_dual_of_logic s r o nofun nofun rfl, exec_dual_of_logic s r o nofun nofun rfl,
    exec_dual_of_logic s r o nofun nofun rfl, exec_dual_of_logic s r o nofun nofun rfl⟩

/-- A test of an accumulator, past its instruction. -/
theorem State.past_accTest (s : State) (i : Instr) (f : Byte → Byte → Ccr → Alu) (r : Acc) (o : Operand8) :
    ((s.past i).accTest f r o).cpu =
        { s.cpu with pc := s.next i, ccr := (f (s.cpu.acc r) (s.load8 o).1 s.cpu.ccr).2 } ∧
      ReadsOnly i s (s.load8 o).2.sys ((s.past i).accTest f r o) := by
  obtain ⟨hcpu, hsys, hctl, henv⟩ := (s.past i).accTest_spec f r o
  rw [State.past, State.advance_load8_sys] at hsys
  refine ⟨?_, .of_load8 ⟨hctl, henv⟩ hsys⟩
  rw [hcpu, State.past_cpu, Cpu.acc_pc, State.past, State.advance_load8_fst]

/-- All that BIT and CMP can do: PC moves on and the flags change. -/
theorem exec_dual_test_spec (s : State) {op : DualOp} (r : Acc) (o : Operand8) (hop : op = .bit ∨ op = .cmp) :
    ∃ t, exec (.dual op r o) s = .next t ∧
      t.cpu = { s.cpu with
        pc := s.next (.dual op r o), ccr := (dualAlu op (s.cpu.acc r) (s.load8 o).1 s.cpu.ccr).2 } ∧
      ReadsOnly (.dual op r o) s (s.load8 o).2.sys t := by
  have hdual : (s.past (.dual op r o)).dual op r o = (s.past (.dual op r o)).accTest (dualAlu op) r o := by
    rcases hop with rfl | rfl <;> rfl
  refine ⟨_, exec_dual s op r o, ?_⟩
  rw [hdual]
  exact s.past_accTest _ _ r o

/-- Settles O15: BIT has the flags of the bitwise and, CMP those of the subtraction. -/
theorem testAndCompare : Obligations.TestAndCompare := by
  intro r o s a m gives
  have gives_of_flags {op : DualOp} {f : Ccr} (hop : op = .bit ∨ op = .cmp)
      (h : (dualAlu op a m s.cpu.ccr).2 = f) : gives op f := by
    have hspec := exec_dual_test_spec s r o hop
    rw [h] at hspec
    exact hspec
  have hbit : (dualAlu .bit a m s.cpu.ccr).2 = logicNZ (a &&& m) s.cpu.ccr := rfl
  have hcmp : (dualAlu .cmp a m s.cpu.ccr).2 = (aluSub a m s.cpu.ccr).2 := rfl
  rw [logicNZ_eq] at hbit
  rw [aluSub_eq] at hcmp
  exact ⟨gives_of_flags (.inl rfl) hbit, gives_of_flags (.inr rfl) hcmp⟩

end Sys2Proof.Machine

/-! PROOF. The statements of 43_data_handling.md: the five shifts (R246 to R261, R266), CLR on memory (R231), STA
(R262, R263), and the transfers between the accumulators (R264, R265). -/

namespace Sys2Proof.Machine

/-! ### The five shifts, as arithmetic -/

/-- What a shift gives: its result, N and Z of it, and the C and V that the manual states (R246, R266). -/
def shiftGives (v : Byte) (carry overflow : Bool) (f : Ccr) : Alu :=
  (v, { f with n := v.msb, z := decide (v = 0), v := overflow, c := carry })

section shifts
variable (m : Byte) (c : Bool) (f : Ccr)

/-- V is N xor C after the shift (R266): what bit 7 of the result makes of it. -/
theorem shifted_eq {v : Byte} {carry overflow : Bool} (h : (v.getLsbD 7 ^^ carry) = overflow) :
    shifted v carry f = shiftGives v carry overflow f := by
  rw [← h]
  simp only [shifted, Ccr.setNZ_eq]
  rfl

/-- The carry goes into bit 0 of a shift to the left. -/
theorem append_carry_eq : m.extractLsb' 0 7 ++ BitVec.ofBool c = m <<< 1 ||| BitVec.ofNat 8 c.toNat := by
  have hcarry : BitVec.ofNat 8 c.toNat = (BitVec.ofBool c).setWidth 8 := by cases c <;> rfl
  rw [hcarry, BitVec.append_ofBool]
  refine BitVec.eq_of_getLsbD_eq fun i hi => ?_
  cases i with
  | zero => simp
  | succ j =>
    have hlt : j + 1 < 8 := hi
    have hj : j < 7 ∧ j < 8 := by omega
    rw [BitVec.getLsbD_concat_succ]
    simp [hlt, hj]

theorem carry_append_getLsbD {i : Nat} (hi : i < 8) :
    (BitVec.ofBool c ++ m.extractLsb' 1 7).getLsbD i = if i = 7 then c else m.getLsbD (1 + i) := by
  rw [BitVec.getLsbD_append, BitVec.getLsbD_extractLsb', BitVec.getLsbD_ofBool]
  by_cases hlast : i = 7
  · simp [hlast]
  · have hlt : i < 7 := by omega
    simp [hlast, hlt]

/-- The carry goes into bit 7 of a shift to the right. -/
theorem carry_append_eq : BitVec.ofBool c ++ m.extractLsb' 1 7 = m >>> 1 ||| BitVec.ofNat 8 (128 * c.toNat) := by
  have hcarry : BitVec.ofNat 8 (128 * c.toNat) = (BitVec.ofBool c).setWidth 8 <<< 7 := by cases c <;> rfl
  rw [hcarry]
  refine BitVec.eq_of_getLsbD_eq fun i hi => ?_
  rw [carry_append_getLsbD m c hi]
  by_cases hlast : i = 7
  · simp [hlast]
  · have hlt : i < 7 := by omega
    simp [hlast, hlt]

/-- The sign in the place of the carry makes the shift to the right an arithmetic one. -/
theorem sign_append_eq : BitVec.ofBool (m.getLsbD 7) ++ m.extractLsb' 1 7 = m.sshiftRight 1 := by
  refine BitVec.eq_of_getLsbD_eq fun i hi => ?_
  rw [carry_append_getLsbD m _ hi, BitVec.getLsbD_sshiftRight, msb_byte]
  by_cases hlast : i = 7
  · simp [hlast]
  · have hlt : 1 + i < 8 := by omega
    have hge : ¬8 ≤ i := by omega
    simp only [hlast, hlt, hge, if_true, if_false, decide_false, Bool.not_false, Bool.true_and]

/-- A shift to the left by the carry `c`: bit 7 goes out, bit 6 becomes the sign. -/
theorem shifted_left :
    shifted (m.extractLsb' 0 7 ++ BitVec.ofBool c) (m.getLsbD 7) f =
      shiftGives (m <<< 1 ||| BitVec.ofNat 8 c.toNat) (m.getLsbD 7) (m.getLsbD 6 ^^ m.getLsbD 7) f := by
  have hsign : (m.extractLsb' 0 7 ++ BitVec.ofBool c).getLsbD 7 = m.getLsbD 6 := by
    rw [BitVec.append_ofBool, BitVec.getLsbD_concat_succ]
    simp
  rw [← append_carry_eq]
  exact shifted_eq f (congrArg (· ^^ m.getLsbD 7) hsign)

/-- A shift to the right of `c` and `m`: bit 0 goes out, `c` becomes the sign. -/
theorem shifted_right :
    shifted (BitVec.ofBool c ++ m.extractLsb' 1 7) (m.getLsbD 0) f =
      shiftGives (BitVec.ofBool c ++ m.extractLsb' 1 7) (m.getLsbD 0) (c ^^ m.getLsbD 0) f := by
  have hsign : (BitVec.ofBool c ++ m.extractLsb' 1 7).getLsbD 7 = c := carry_append_getLsbD m c (by decide)
  exact shifted_eq f (congrArg (· ^^ m.getLsbD 0) hsign)

theorem aluRol_eq :
    aluRol m f =
      shiftGives (m <<< 1 ||| BitVec.ofNat 8 f.c.toNat) (m.getLsbD 7) (m.getLsbD 6 ^^ m.getLsbD 7) f :=
  shifted_left m f.c f

/-- ASL shifts 0 in. -/
theorem aluAsl_eq : aluAsl m f = shiftGives (m <<< 1) (m.getLsbD 7) (m.getLsbD 6 ^^ m.getLsbD 7) f := by
  have hzero : m <<< 1 ||| BitVec.ofNat 8 false.toNat = m <<< 1 := BitVec.or_zero
  rw [← hzero]
  exact shifted_left m false f

theorem aluRor_eq :
    aluRor m f =
      shiftGives (m >>> 1 ||| BitVec.ofNat 8 (128 * f.c.toNat)) (m.getLsbD 0) (f.c ^^ m.getLsbD 0) f := by
  rw [← carry_append_eq]
  exact shifted_right m f.c f

/-- ASR shifts the sign in. -/
theorem aluAsr_eq : aluAsr m f = shiftGives (m.sshiftRight 1) (m.getLsbD 0) (m.getLsbD 7 ^^ m.getLsbD 0) f := by
  have hsign : m.extractLsb' 7 1 = BitVec.ofBool (m.getLsbD 7) := by
    refine BitVec.eq_of_getLsbD_eq fun i hi => ?_
    obtain rfl : i = 0 := by omega
    simp
  rw [aluAsr, hsign, ← sign_append_eq]
  exact shifted_right m (m.getLsbD 7) f

/-- LSR shifts 0 in. -/
theorem aluLsr_eq : aluLsr m f = shiftGives (m >>> 1) (m.getLsbD 0) (m.getLsbD 0) f := by
  have hshift : BitVec.ofBool false ++ m.extractLsb' 1 7 = m >>> 1 := (carry_append_eq m false).trans BitVec.or_zero
  have h : aluLsr m f = _ := shifted_right m false f
  rw [hshift, Bool.false_xor] at h
  exact h

end shifts

/-- Settles O18: each of the five is its result-and-flag function, past its one byte. -/
theorem shiftAccumulator : Obligations.ShiftAccumulator := by
  intro r s m c gives
  have gives_of_alu {op : RmwOp} {v : Byte} {carry overflow : Bool}
      (h : rmwAlu op m s.cpu.ccr = shiftGives v carry overflow s.cpu.ccr) : gives op v carry overflow := by
    have hspec := exec_rmwAcc_spec s op r
    rw [h] at hspec
    exact hspec
  exact ⟨gives_of_alu (aluRol_eq m _), gives_of_alu (aluAsl_eq m _), gives_of_alu (aluRor_eq m _),
    gives_of_alu (aluAsr_eq m _), gives_of_alu (aluLsr_eq m _)⟩

/-- Settles O20: each of the five is its result-and-flag function, between one read and one write of its address. -/
theorem shiftMemory : Obligations.ShiftMemory := by
  intro p s a m c gives
  have gives_of_alu {op : RmwOp} {v : Byte} {carry overflow : Bool} (htst : op ≠ .tst) (hclr : op ≠ .clr)
      (h : rmwAlu op m s.cpu.ccr = shiftGives v carry overflow s.cpu.ccr) : gives op v carry overflow := by
    have hspec := exec_rmwMem_spec s op p htst hclr
    rw [h] at hspec
    exact hspec
  exact ⟨gives_of_alu nofun nofun (aluRol_eq m _), gives_of_alu nofun nofun (aluAsl_eq m _),
    gives_of_alu nofun nofun (aluRor_eq m _), gives_of_alu nofun nofun (aluAsr_eq m _),
    gives_of_alu nofun nofun (aluLsr_eq m _)⟩

/-! ### Stores -/

/-- Settles O21: a board on which CLR reads first makes a read and a write, any other the write alone. -/
theorem clearMemory : Obligations.ClearMemory := by
  intro p s i a
  obtain ⟨hcpu, hsys, hctl, henv⟩ := (s.past i).memClear_spec p.toEa
  rw [State.past_cpu, Cpu.ea_pc, State.past_sys] at hsys
  refine ⟨_, exec_rmwMem s .clr p, hcpu, ?_⟩
  by_cases hfirst : s.sys.board.clrReadsFirst = true
  · rw [if_pos hfirst] at hsys ⊢
    exact .of_read_write ⟨hctl, henv⟩ hsys
  · rw [if_neg hfirst] at hsys ⊢
    exact .of_write ⟨hctl, henv⟩ hsys

/-- Settles O23: STA is one store of the accumulator, with the flags of a logic operation. -/
theorem storeAccumulator : Obligations.StoreAccumulator := by
  intro r e s i v
  obtain ⟨hcpu, hsys, hctl, henv⟩ := (s.past i).storeAcc_spec r e
  rw [State.past_cpu, Cpu.acc_pc] at hcpu hsys
  rw [Cpu.ea_pc] at hsys
  rw [logicNZ_eq] at hcpu
  exact ⟨_, exec_sta s r e, hcpu, .of_write ⟨hctl, henv⟩ hsys⟩

/-! ### Between the accumulators -/

/-- Settles O26: TAB and TBA load the other accumulator's byte, with the flags of a logic operation. -/
theorem transferAccumulators : Obligations.TransferAccumulators := by
  intro s flags
  have hflags (v : Byte) : flags v = logicNZ v s.cpu.ccr := (logicNZ_eq v s.cpu.ccr).symm
  rw [hflags, hflags]
  exact ⟨⟨rfl, rfl⟩, ⟨rfl, rfl⟩, registersOnly_of_exec rfl, registersOnly_of_exec rfl⟩

end Sys2Proof.Machine

/-! PROOF. The statements of 44_index_stack.md: LDX, LDS and CPX, which read a 16-bit operand (R280, R285, R286, R292), and
the six that move X and SP inside the MPU (R281 to R284, R289, R290). -/

namespace Sys2Proof.Machine

/-! ### Instructions with a 16-bit operand -/

section wide
variable (s : State) (i : Instr) (o : Operand16)

/-- The operand is the same past the instruction's bytes. -/
theorem State.past_load16_fst : ((s.past i).load16 o).1 = (s.load16 o).1 := s.advance_load16_fst _ _ o

theorem State.past_load16_sys : ((s.past i).load16 o).2.sys = (s.load16 o).2.sys := s.advance_load16_sys _ _ o

variable {s i o}

/-- An instruction that reads its 16-bit operand and then only replaces the registers changes no byte of memory. -/
theorem readsOnly_of_exec {p : Cpu} (h : exec i s = .next (((s.past i).load16 o).2.setCpu p)) :
    ∃ t, exec i s = .next t ∧ t.cpu = p ∧ ReadsOnly i s (s.load16 o).2.sys t := by
  have hsys := s.past_load16_sys i o
  refine ⟨_, h, rfl, ⟨State.load16_ctl _ o, State.load16_env _ o⟩, hsys, fun hs a => ?_⟩
  exact (congrArg (System.cell · a) hsys).trans (s.load16_cell o a hs)

variable (s i o)

/-- LDX past its instruction: X and the flags follow the operand (R285, R292). -/
theorem State.past_loadX :
    (s.past i).loadX o =
      ((s.past i).load16 o).2.setCpu { s.cpu with
        x := (s.load16 o).1
        pc := s.next i
        ccr := { s.cpu.ccr with n := (s.load16 o).1.msb, z := decide ((s.load16 o).1 = 0), v := false } } := by
  rw [State.loadX, State.past_load16_fst, move16Flags_eq, State.past_cpu]

/-- LDS past its instruction: SP and the flags follow the operand (R286, R292). -/
theorem State.past_loadSP :
    (s.past i).loadSP o =
      ((s.past i).load16 o).2.setCpu { s.cpu with
        sp := (s.load16 o).1
        pc := s.next i
        ccr := { s.cpu.ccr with n := (s.load16 o).1.msb, z := decide ((s.load16 o).1 = 0), v := false } } := by
  rw [State.loadSP, State.past_load16_fst, move16Flags_eq, State.past_cpu]

end wide

/-- Settles O30: LDX and LDS read the operand and load it, with the flags of a 16-bit move. -/
theorem loadIndexAndStack : Obligations.LoadIndexAndStack := by
  intro o s v flags
  have hldx := exec_ldx s o
  have hlds := exec_lds s o
  rw [State.past_loadX] at hldx
  rw [State.past_loadSP] at hlds
  exact ⟨readsOnly_of_exec hldx, readsOnly_of_exec hlds⟩

/-! ### The comparison with X -/

/-- The printed V test is that of an 8-bit subtraction (R161, R280). -/
theorem ovf8_eq (a b : Byte) (f : Ccr) : ovf8 a b = (aluSub a b f).2.v := by
  have hdiff : a - b = (aluSub a b f).1 := by rw [aluSub_eq]
  simp only [ovf8, hdiff]
  rfl

/-- Z of CPX tells equality; V is that of the low bytes alone (R280, log 18). -/
theorem cpxFlags_eq (x m : Word) (f : Ccr) :
    cpxFlags x m f =
      (let x0 : Byte := x.setWidth 8
      let m0 : Byte := m.setWidth 8
      { f with n := (x - m).msb, z := decide (x = m), v := decide ((x0 - m0).toInt ≠ x0.toInt - m0.toInt) }) := by
  have hlow (w : Word) : w.extractLsb' 0 8 = w.setWidth 8 := (BitVec.setWidth_eq_extractLsb' (by decide)).symm
  have hzero : (x - m == 0) = decide (x = m) := decide_eq_decide.mpr sub_eq_zero
  simp only [cpxFlags, Ccr.setNZ16, ovf8_eq _ _ f, aluSub_eq, hlow, hzero, msb_word]

/-- CPX past its instruction: the flags of the comparison, and X stays. -/
theorem State.past_compareX (s : State) (i : Instr) (o : Operand16) :
    (s.past i).compareX o =
      ((s.past i).load16 o).2.setCpu { s.cpu with
        pc := s.next i, ccr := cpxFlags s.cpu.x (s.load16 o).1 s.cpu.ccr } := by
  rw [State.compareX, State.setCcr, State.past_load16_fst, State.load16_cpu, State.past_cpu]
  rfl

/-- Settles O27: CPX reads the operand and replaces the flags alone. -/
theorem compareIndex : Obligations.CompareIndex := by
  intro o s i m x0 m0
  have hexec := exec_cpx s o
  rw [State.past_compareX, cpxFlags_eq] at hexec
  exact readsOnly_of_exec hexec

/-! ### X and SP inside the MPU -/

/-- DEX gives zero from 0001 (R281). -/
theorem exec_dex (s : State) :
    exec .dex s =
      .next ((s.past .dex).setCpu { s.cpu with
        x := s.cpu.x - 1, pc := s.cpu.pc + 1, ccr := { s.cpu.ccr with z := decide (s.cpu.x = 1) } }) := by
  simp only [← sub_eq_zero (a := s.cpu.x)]
  rfl

/-- INX gives zero from FFFF (R283). -/
theorem exec_inx (s : State) :
    exec .inx s =
      .next ((s.past .inx).setCpu { s.cpu with
        x := s.cpu.x + 1, pc := s.cpu.pc + 1, ccr := { s.cpu.ccr with z := decide (s.cpu.x = 0xFFFF) } }) := by
  have hzero : s.cpu.x = 0xFFFF ↔ s.cpu.x + 1 = 0 := by bv_omega
  simp only [hzero]
  rfl

/-- Settles O28: DEX and INX replace X and Z past their one byte. -/
theorem stepIndex : Obligations.StepIndex := fun s =>
  ⟨⟨rfl, rfl⟩, ⟨rfl, rfl⟩, registersOnly_of_exec (exec_dex s), registersOnly_of_exec (exec_inx s)⟩

/-- Settles O29: each of the four replaces X or SP past its one byte. -/
theorem moveStackPointer : Obligations.MoveStackPointer := by
  intro s gives
  have gives_of_exec {i : Instr} {opcode : Byte} {x sp : Word} (hform : HasForm i [opcode] 4)
      (hexec : exec i s = .next ((s.past i).setCpu { s.cpu with x := x, sp := sp, pc := s.next i })) :
      gives i opcode x sp := by
    rw [State.next_of_encode hform.1] at hexec
    exact ⟨hform, registersOnly_of_exec hexec⟩
  exact ⟨gives_of_exec ⟨rfl, rfl⟩ rfl, gives_of_exec ⟨rfl, rfl⟩ rfl, gives_of_exec ⟨rfl, rfl⟩ rfl,
    gives_of_exec ⟨rfl, rfl⟩ rfl⟩

end Sys2Proof.Machine

/-! PROOF. The statements of 45_jump_branch.md: JMP and NOP (R327, R329), the returns (R330, R331), the two instructions that
stack the registers, SWI and WAI (R332, R333), and the branches after a compare or a subtraction (R335). -/

namespace Sys2Proof.Machine

/-! ### JMP and NOP -/

/-- Settles O35: each of the three only gives PC another value past its bytes. -/
theorem jumpAndNop : Obligations.JumpAndNop := fun s =>
  ⟨fun off => registersOnly_of_exec (exec_jmp s (.idx off)), fun w => registersOnly_of_exec (exec_jmp s (.ext w)),
    registersOnly_of_exec (p := { s.cpu with pc := s.cpu.pc + 1 }) rfl⟩

/-! ### Accesses that change no byte of memory -/

/-- With no cycle to be stolen in `y`, there is none in `z` either, and every address has the same byte: what reads one
after the other keep (R62). -/
def System.KeepsBytes (y z : System) : Prop := y.steals = [] → z.steals = [] ∧ ∀ a, z.cell a = y.cell a

section keepsBytes
variable {y z : System}

theorem System.KeepsBytes.refl (y : System) : y.KeepsBytes y := fun hs => ⟨hs, fun _ => rfl⟩

/-- One more read. -/
theorem System.KeepsBytes.read (h : y.KeepsBytes z) (a : Word) : y.KeepsBytes (z.read a).2 := by
  intro hs
  obtain ⟨hsteals, hcells⟩ := h hs
  exact ⟨z.read_steals a hsteals, fun b => (z.read_cell a b hsteals).trans (hcells b)⟩

theorem System.KeepsBytes.sameBytes (h : y.KeepsBytes z) : SameBytes y z := fun hs => (h hs).2

/-- An instruction whose accesses keep the bytes did no more than read. -/
theorem ReadsOnly.of_keepsBytes {i : Instr} {s t : State} (ho : Ordinary i s t) (h : t.sys = y)
    (hkeeps : s.sys.KeepsBytes y) : ReadsOnly i s y t := by
  refine ⟨ho, h, ?_⟩
  rw [h]
  exact hkeeps.sameBytes

end keepsBytes

/-! ### Returns -/

theorem exec_rts (s : State) : exec .rts s = .next ((s.past .rts).pull16.2.jump (s.past .rts).pull16.1) := rfl

/-- Settles O36: RTS is a 16-bit pull past its one byte, and a jump to the word pulled. -/
theorem returnFromSubroutine : Obligations.ReturnFromSubroutine := by
  intro s hi lo
  obtain ⟨hword, hcpu, hsys, hctl, henv⟩ := (s.past .rts).pull16_spec
  have hsp : s.cpu.sp + 1 + 1 = s.cpu.sp + 2 := by bv_omega
  rw [State.past_cpu, State.past_sys, hsp] at hword hsys
  rw [State.past_cpu, hsp] at hcpu
  refine ⟨_, exec_rts s, ?_, .of_keepsBytes ⟨hctl, henv⟩ hsys (((System.KeepsBytes.refl _).read _).read _)⟩
  rw [State.jump_cpu, hcpu, hword]
  rfl

theorem exec_rti (s : State) : exec .rti s = .next (s.past .rti).returnFromInterrupt := rfl

/-- Settles O37: RTI is the return from an interrupt past its one byte; PC comes from the frame. -/
theorem returnFromInterrupt : Obligations.ReturnFromInterrupt := by
  intro s r1 r2 r3 r4 r5 r6 r7
  obtain ⟨hcpu, hsys, hctl, henv⟩ := (s.past .rti).returnFromInterrupt_spec
  have hkeeps : s.sys.KeepsBytes r7.2 :=
    (((((((System.KeepsBytes.refl _).read _).read _).read _).read _).read _).read _).read _
  exact ⟨_, exec_rti s, hcpu, .of_keepsBytes ⟨hctl, henv⟩ hsys hkeeps⟩

/-! ### The instructions that stack the registers -/

/-- The frame for a return address does not depend on the instruction whose bytes have been passed. -/
theorem State.past_framed (s : State) (i : Instr) (ret : Word) : (s.past i).framed ret = s.framed ret := rfl

theorem exec_wai (s : State) :
    exec .wai s =
      .next { (s.past .wai).stackRegisters (s.cpu.pc + 1) with
        ctl := { s.ctl with runState := .waiting, prevOpcodeLsb := opcodeLsb .wai } } := rfl

/-- Settles O39: WAI stacks the registers past its one byte; the frame is all that it writes. -/
theorem waitForInterrupt : Obligations.WaitForInterrupt := by
  intro s
  obtain ⟨hcpu, hsys, _, henv⟩ := (s.past .wai).stackRegisters_spec (s.cpu.pc + 1)
  rw [State.past_framed] at hsys
  have hbytes := s.framed_sameBytes (s.cpu.pc + 1)
  rw [← hsys] at hbytes
  exact ⟨_, exec_wai s, hcpu, rfl, henv, hsys, hbytes⟩

theorem exec_swi (s : State) : exec .swi s = .next (s.past .swi).softwareInterrupt := rfl

/-- A sequence that clears the NMI latch, writes the frame, leaves the latch at `b` and reads a vector changes no byte
outside the frame's. -/
theorem State.framed_read16_sameBytes (s : State) (ret vector : Word) (b : Bool) :
    SameBytesExcept (frameAddresses s.cpu.sp) s.sys
      (System.read16 { s.clearNmi.framed ret with nmiLatch := b } vector).2 := by
  intro hs a ha
  have hsteals : (s.clearNmi.framed ret).steals = [] := System.writes_steals _ _ hs
  calc _ = System.cell { s.clearNmi.framed ret with nmiLatch := b } a := System.read16_cell _ vector a hsteals
    _ = (s.clearNmi.framed ret).cell a := System.cell_congr _ _ rfl rfl rfl a
    _ = s.clearNmi.sys.cell a := s.clearNmi.framed_sameBytes ret hs a ha
    _ = s.sys.cell a := System.cell_congr _ _ rfl rfl rfl a

/-- The execution of SWI: an interrupt is taken past its one byte, with the edge of this step as its NMI. -/
theorem exec_swi_spec (s : State) :
    let y := s.clearNmi.framed (s.cpu.pc + 1)
    let arrives := s.env.nmiDuring || y.nmiLatch
    let z := { y with nmiLatch := !arrives && s.sys.nmiLatch }
    let vector := if arrives then irqVector else swiVector
    ∃ t, exec .swi s = .next t ∧ t.cpu = vectored s.cpu z vector ∧ t.sys = (z.read16 vector).2 ∧
      t.env = { s.env with nmiDuring := false } ∧ t.ctl = afterVector s.ctl := by
  obtain ⟨hcpu, hsys, hctl, _⟩ :=
    (s.past .swi).takeInterrupt_spec (s.cpu.pc + 1) swiVector irqVector s.env.nmiDuring
  exact ⟨_, exec_swi s, hcpu, hsys, rfl, hctl⟩

/-- An NMI edge that the fetch makes is noted as one during the instruction, and the latch is as before the fetch. -/
theorem State.fetch_of_edge (s : State) (h : s.clearNmi.fetchBytes.2.sys.nmiLatch = true) :
    s.fetch.2.env.nmiDuring = true ∧ s.fetch.2.sys.nmiLatch = s.sys.nmiLatch := by
  refine ⟨?_, rfl⟩
  simp only [State.fetch, State.pulseDuring_env, State.noteDuring_env, h, Bool.or_true]

theorem State.runInstruction_of_decode (s : State) {i : Instr} {rest : List Byte} (h : decode s.fetch.1 = .ok (i, rest)) :
    s.runInstruction = settleOutcome (exec i s.fetch.2) := by
  rw [State.runInstruction, h]

/-- Settles O38: the execution of SWI takes an interrupt, and its fetch hands the execution the edge that it meets. -/
theorem softwareInterrupt : Obligations.SoftwareInterrupt := by
  intro s
  refine ⟨?_, fun rest hdecode hedge => ⟨s.runInstruction_of_decode hdecode, s.fetch_of_edge hedge⟩⟩
  intro y arrives z vector
  obtain ⟨t, hexec, hcpu, hsys, henv, hctl⟩ := exec_swi_spec s
  refine ⟨t, hexec, hcpu, hsys, henv, hctl, ?_⟩
  rw [hsys]
  exact s.framed_read16_sameBytes _ _ _

/-! ### Branches after a compare or a subtraction -/

/-- What each branch tells of the operands when its flags are those of `a - m`: the table of R335, and for the others what
becomes of the difference. -/
def condTells (c : Cond) (a m : Byte) : Prop :=
  match c with
  | .always => True
  | .hi => m.toNat < a.toNat
  | .ls => a.toNat ≤ m.toNat
  | .cc => m.toNat ≤ a.toNat
  | .cs => a.toNat < m.toNat
  | .ne => a ≠ m
  | .eq => a = m
  | .vc => (a - m).toInt = a.toInt - m.toInt
  | .vs => (a - m).toInt ≠ a.toInt - m.toInt
  | .pl => 0 ≤ (a - m).toInt
  | .mi => (a - m).toInt < 0
  | .ge => m.toInt ≤ a.toInt
  | .lt => a.toInt < m.toInt
  | .gt => m.toInt < a.toInt
  | .le => a.toInt ≤ m.toInt

section subtraction
variable (a m : Byte) (f : Ccr)

/-- Where the signed difference fits, its sign tells the order; where it does not, the sign is the wrong one (R161). -/
theorem sub_sign_ne_overflow_iff :
    (a - m).msb ≠ decide ((a - m).toInt ≠ a.toInt - m.toInt) ↔ a.toInt < m.toInt := by
  have ha := a.isLt
  have hm := m.isLt
  have hsub : (a - m).toNat = (a.toNat + 256 - m.toNat) % 256 := by bv_omega
  rw [BitVec.msb_eq_toInt, ne_eq, decide_eq_decide, toInt_byte, toInt_byte a, toInt_byte m, hsub]
  split <;> split <;> split <;> omega

/-- The test of a branch on the flags of a subtraction is the relation of the operands (R335). -/
theorem condHolds_aluSub_iff (c : Cond) : condHolds c (aluSub a m f).2 = true ↔ condTells c a m := by
  have hlt := sub_sign_ne_overflow_iff a m
  have hge : (a - m).msb = decide ((a - m).toInt ≠ a.toInt - m.toInt) ↔ m.toInt ≤ a.toInt := by
    rw [← not_iff_not, Int.not_le]
    exact hlt
  have hsigned : a = m ↔ a.toInt = m.toInt := BitVec.toInt_inj.symm
  have hunsigned : a = m ↔ a.toNat = m.toNat := BitVec.toNat_inj.symm
  rw [condHolds_iff, aluSub_eq]
  cases c with
  | always => exact Iff.rfl
  | eq | ne | cs | cc | vs | vc => simp [condTest, condTells]
  | pl | mi => simp [condTest, condTells, BitVec.msb_eq_toInt]
  | lt => exact hlt
  | ge => exact hge
  | gt | le =>
    simp only [condTest, condTells, decide_eq_true_eq, decide_eq_false_iff_not, hlt, hge, hsigned]
    omega
  | hi | ls =>
    simp only [condTest, condTells, decide_eq_true_eq, decide_eq_false_iff_not, hunsigned]
    omega

end subtraction

/-- A branch that finds the flags of a subtraction goes to its target exactly if its relation holds of the operands. -/
theorem exec_branch_of_aluSub {t : State} {a m : Byte} {f : Ccr} (h : t.cpu.ccr = (aluSub a m f).2) (rel : Byte)
    (c : Cond) :
    ∃ u, exec (.branch c rel) t = .next u ∧ (condTells c a m → u.cpu.pc = t.cpu.pc + 2 + rel.signExtend 16) ∧
      (¬condTells c a m → u.cpu.pc = t.cpu.pc + 2) := by
  obtain ⟨u, hexec, hcpu, _⟩ := exec_branch_cpu c rel t
  refine ⟨u, hexec, ?_⟩
  rw [hcpu, h, ← condHolds_aluSub_iff a m f c]
  exact ⟨fun hholds => if_pos hholds, fun hfails => if_neg hfails⟩

/-- CMP leaves the flags of a subtraction (R212, R213). -/
theorem ccr_of_exec_cmp {s t : State} {r : Acc} {o : Operand8} (h : exec (.dual .cmp r o) s = .next t) :
    t.cpu.ccr = (aluSub (s.cpu.acc r) (s.load8 o).1 s.cpu.ccr).2 := by
  obtain ⟨u, hexec, hcpu, _⟩ := exec_dual_test_spec s r o (.inr rfl)
  obtain rfl : u = t := Host.Outcome.next.inj (hexec.symm.trans h)
  rw [hcpu]
  rfl

/-- SUB leaves the flags of a subtraction (R169, R170). -/
theorem ccr_of_exec_sub {s t : State} {r : Acc} {o : Operand8} (h : exec (.dual .sub r o) s = .next t) :
    t.cpu.ccr = (aluSub (s.cpu.acc r) (s.load8 o).1 s.cpu.ccr).2 := by
  obtain ⟨u, hexec, hcpu, _⟩ := exec_dual_spec s .sub r o nofun nofun
  obtain rfl : u = t := Host.Outcome.next.inj (hexec.symm.trans h)
  rw [hcpu, Cpu.setAcc_ccr]
  rfl

/-- CBA and SBA leave the flags of the subtraction of B from A (R171, R214). -/
theorem ccr_of_exec_cba_sba {s t : State} (h : exec .cba s = .next t ∨ exec .sba s = .next t) :
    t.cpu.ccr = (aluSub s.cpu.a s.cpu.b s.cpu.ccr).2 := by
  rcases h with h | h <;> (cases h; rfl)

/-- Settles O16: each of the instructions leaves the flags of a subtraction of its operands, and the branches read them. -/
theorem branchAfterCompare : Obligations.BranchAfterCompare := by
  intro s t rel tells
  have tells_of_flags {i : Instr} {a m : Byte}
      (h : exec i s = .next t → t.cpu.ccr = (aluSub a m s.cpu.ccr).2) : tells i a m := by
    intro hexec
    have taken := exec_branch_of_aluSub (h hexec) rel
    exact ⟨taken .lt, taken .le, taken .ge, taken .gt, taken .cs, taken .ls, taken .cc, taken .hi, taken .eq, taken .ne⟩
  exact ⟨fun r o => ⟨tells_of_flags ccr_of_exec_cmp, tells_of_flags ccr_of_exec_sub⟩,
    tells_of_flags fun h => ccr_of_exec_cba_sba (.inl h), tells_of_flags fun h => ccr_of_exec_cba_sba (.inr h)⟩

end Sys2Proof.Machine

/-! PROOF. The statements of 60_exceptions.md about the MPU: instructions never stop it (R360, R400), the interrupt sequences
(R361 to R376), the wait state (R385 to R388), the halt (R390 to R392) and the hold-offs (R368, R391). -/

namespace Sys2Proof.Machine

/-- Settles O7: among the effects of an instruction is the state it answers. -/
theorem everyInstructionCompletes : Obligations.EveryInstructionCompletes := by
  intro i s
  obtain ⟨t, hexec, _⟩ := exec_acts i s
  exact ⟨t, hexec⟩

/-! ### The end of a step -/

/-- An IRQ pulse that finds I set is lost (R367). -/
theorem State.pulseDuring_of_masked {s : State} (hi : s.cpu.ccr.i = true) :
    s.pulseDuring = { s with env := { s.env with irqDuring := false } } := by
  simp [State.pulseDuring, hi]

/-- The end of a step that has set I, with no NMI edge and no RES inside it: the IRQ pulse of the step is lost (log 22). -/
theorem State.settle_of_masked {s : State} (hn : s.env.nmiDuring = false) (hc : s.sys.resCut = none)
    (hi : s.cpu.ccr.i = true) : s.settle = { s with env := { s.env with irqDuring := false } } := by
  rw [s.settle_of_quiet hn hc, State.pulseDuring_of_masked hi]

/-! ### The hold-offs -/

/-- Settles O46: either hold-off keeps both tests from taking an interrupt, and the boundary goes on to an instruction. -/
theorem holdoffsLastOneBoundary : Obligations.HoldoffsLastOneBoundary := by
  intro s hu hr hoff
  have hnmi : s.takesNmi = false := by
    rcases hoff with ⟨_, hlatch⟩ | hhalt
    · simp [State.takesNmi, hlatch]
    · simp [State.takesNmi, hhalt]
  have hirq : s.takesIrq = false := by
    rcases hoff with ⟨hcli, _⟩ | hhalt
    · simp [State.takesIrq, hcli]
    · simp [State.takesIrq, hhalt]
  exact ⟨step_of_undisturbed hu hr hnmi hirq, rfl, rfl⟩

/-! ### The halt -/

/-- With HALT low the boundary of a running machine enters the halt, and that of a halted one stays in it (R390). -/
theorem State.boundary_of_haltLow {s : State} (hres : s.env.resLow = false) (htsc : s.env.tscHigh = false)
    (hhalt : s.env.haltLow = true) (hr : s.ctl.runState = .running ∨ s.ctl.runState = .halted) :
    s.boundary = .over s.enterHalt := by
  rcases hr with hr | hr
  · simp [State.boundary, hres, htsc, hhalt, hr]
  · have hstay : s.enterHalt = s := by simp [State.enterHalt, ← hr]
    simp [State.boundary, hres, htsc, hhalt, hr, hstay]

/-- With HALT high again the hold-off after the halt sends the boundary on to an instruction (R391). -/
theorem State.boundary_of_released {s : State} (hres : s.env.resLow = false) (htsc : s.env.tscHigh = false)
    (hhalt : s.env.haltLow = false) (hr : s.ctl.runState = .halted) :
    s.boundary = .execute s.leaveHalt.clearHoldoffs.pulseE := by
  have hnmi : s.leaveHalt.takesNmi = false := by simp [State.takesNmi]
  have hirq : s.leaveHalt.takesIrq = false := by simp [State.takesIrq]
  simp [State.boundary, State.runBoundary, hres, htsc, hhalt, hr, hnmi, hirq]

/-- Settles O47, by what the boundary decides for each level of HALT. -/
theorem haltState : Obligations.HaltState := by
  intro s hempty hres htsc hn hc
  rw [step_of_empty s hempty]
  constructor
  · intro hr hhalt
    rw [State.boundary_of_haltLow hres htsc hhalt hr, Decision.outcome, s.enterHalt.settle_of_quiet hn hc]
    rfl
  · intro hr hhalt
    rw [State.boundary_of_released hres htsc hhalt hr]
    rfl

/-! ### The interrupt sequences -/

/-- A step whose boundary takes an interrupt stacks the frame for PC, after the E pulses of the boundary, and enters the
vector that the NMI edges inside it select (R361, R369 to R371, R374). -/
theorem step_of_takeInterrupt {s : State} (hu : Undisturbed s) (vector withNmi : Word) (nmi : Bool)
    (h : s.boundary = .over (s.clearHoldoffs.pulseE.takeInterrupt s.cpu.pc vector withNmi nmi)) :
    let y := s.pulseE.clearNmi.framed s.cpu.pc
    let arrives := nmi || y.nmiLatch
    let z := { y with nmiLatch := !arrives && s.pulseE.sys.nmiLatch }
    let v := if arrives then withNmi else vector
    ∃ t, step s = .next t ∧ t.cpu = vectored s.cpu z v ∧
      t.ctl = { afterVector s.ctl with irqHoldoff := false, haltHoldoff := false } ∧
      t.env = { s.env with irqDuring := false } ∧ t.sys = (z.read16 v).2 ∧
      SameBytesExcept (frameAddresses s.cpu.sp) s.sys t.sys := by
  intro y arrives z v
  obtain ⟨hempty, _, _, _, hn, hc, _⟩ := hu
  obtain ⟨hcpu, hsys, hctl, henv⟩ := s.clearHoldoffs.pulseE.takeInterrupt_spec s.cpu.pc vector withNmi nmi
  generalize s.clearHoldoffs.pulseE.takeInterrupt s.cpu.pc vector withNmi nmi = u at h hcpu hsys hctl henv
  have hcut : u.sys.resCut = none := by
    rw [hsys, System.read16_resCut]
    exact System.writes_resCut_none _ _ hc
  have hsettle : u.settle = { u with env := { u.env with irqDuring := false } } :=
    State.settle_of_masked (by rw [henv]; exact hn) hcut (by rw [hcpu]; rfl)
  refine ⟨u.settle, by rw [step_of_empty s hempty, h]; rfl, ?_⟩
  rw [hsettle]
  refine ⟨hcpu, hctl, by rw [henv]; rfl, hsys, ?_⟩
  have hbytes := s.pulseE.framed_read16_sameBytes s.cpu.pc v (!arrives && s.pulseE.sys.nmiLatch)
  intro hs a ha
  calc u.sys.cell a = (z.read16 v).2.cell a := congrArg (System.cell · a) hsys
    _ = s.pulseE.sys.cell a := hbytes hs a ha
    _ = s.sys.cell a := s.clearHoldoffs_pulseE_cell a

/-- Where an IRQ can come from: other hardware, a latched pulse, or a device wired to the pin (R366, R381, R432, R464). -/
theorem State.irqPresent_iff (s : State) :
    s.irqPresent = true ↔
      s.env.irqExt = true ∨ s.ctl.irqLatch = true ∨
        (∃ p ∈ s.sys.pias,
          (p.sideA.wire = .irq ∧ p.sideA.irqLow = true) ∨ (p.sideB.wire = .irq ∧ p.sideB.irqLow = true)) ∨
        ∃ p ∈ s.sys.acias, p.wire = .irq ∧ p.irqLow = true := by
  simp only [State.irqPresent, State.irqLine, System.devicesPull, Pia.pulls, Acia.pulls, Bool.or_eq_true,
    Bool.and_eq_true, beq_iff_eq, List.any_eq_true]
  rw [or_right_comm, or_assoc]

/-- Settles O43: the boundary finds no NMI and takes the IRQ, whose frame may bring an NMI. -/
theorem irqSequence : Obligations.IrqSequence := by
  intro s
  refine ⟨s.irqPresent_iff, ?_⟩
  intro hu hr hlatch hi hirq hcli hhalt
  have hnmi : s.takesNmi = false := by simp [State.takesNmi, hlatch]
  have htakes : s.takesIrq = true := by simp [State.takesIrq, hi, hirq, hcli, hhalt]
  have hboundary : s.boundary = .over s.clearHoldoffs.pulseE.irqSequence := by
    simp [s.boundary_of_running hu hr, State.runBoundary, hnmi, htakes]
  have hspent : { afterVector s.ctl with irqHoldoff := false, haltHoldoff := false } = afterVector s.ctl := by
    simp only [afterVector, hcli, hhalt]
  have h := step_of_takeInterrupt hu irqVector nmiVector false hboundary
  rw [hspent] at h
  exact h

/-- Settles O44: the boundary takes the NMI before it looks at I or at an IRQ. -/
theorem nmiSequence : Obligations.NmiSequence := by
  intro s hu hr hlatch hhalt
  have hnmi : s.takesNmi = true := by simp [State.takesNmi, hlatch, hhalt]
  have hboundary : s.boundary = .over s.clearHoldoffs.pulseE.nmiSequence := by
    simp [s.boundary_of_running hu hr, State.runBoundary, hnmi]
  have hspent : { afterVector s.ctl with irqHoldoff := false, haltHoldoff := false } =
      { afterVector s.ctl with irqHoldoff := false } := by
    simp only [afterVector, hhalt]
  have h := step_of_takeInterrupt hu nmiVector nmiVector true hboundary
  rw [hspent] at h
  exact h

/-! ### The wait state -/

/-- A waiting machine that nothing disturbs leaves the step to its boundary. -/
theorem step_of_waiting {s : State} (hu : Undisturbed s) (hr : s.ctl.runState = .waiting) :
    step s = .next s.waitBoundary.settle := by
  rw [step_of_empty s hu.1, s.boundary_of_waiting hu hr]
  rfl

/-- A step that leaves the wait state by a vector, the NMI latch at `b` after the E pulses of the exit: nothing is stacked,
and two bytes are read (R386, R387). -/
theorem step_of_waitExit {s : State} (hu : Undisturbed s) (hr : s.ctl.runState = .waiting) {b : Bool} {vector : Word}
    (h : s.waitBoundary = (s.leaveWait.restoreNmi b).enterVector vector) :
    let y := { s.pulseE.sys with nmiLatch := b }
    ∃ t, step s = .next t ∧
      t.cpu = { s.cpu with pc := (y.read16 vector).1, ccr := { s.cpu.ccr with i := true } } ∧
      t.ctl = { afterVector s.ctl with runState := .running } ∧ t.env = { s.env with irqDuring := false } ∧
      t.sys = (y.read16 vector).2 ∧ SameBytes s.sys t.sys := by
  intro y
  have hstep := step_of_waiting hu hr
  obtain ⟨_, _, _, _, hn, hc, _⟩ := hu
  have hcut : (y.read16 vector).2.resCut = none := (y.read16_resCut vector).trans hc
  have hsettle := State.settle_of_masked (s := (s.leaveWait.restoreNmi b).enterVector vector) hn hcut rfl
  rw [h, hsettle] at hstep
  have hbytes : SameBytes s.sys (y.read16 vector).2 := fun hs a =>
    (y.read16_cell vector a hs).trans (System.cell_congr _ _ rfl rfl rfl a)
  exact ⟨_, hstep, rfl, rfl, rfl, rfl, hbytes⟩

/-- Settles O45, by the three branches of the boundary of a waiting machine. -/
theorem waitStateExit : Obligations.WaitStateExit := by
  intro s hu hr leaves
  refine ⟨fun hlatch => ?nmi, fun hlatch hi hirq => ?irq, fun hlatch hneither => ?stay⟩
  case nmi =>
    have hb : s.waitBoundary = (s.leaveWait.restoreNmi false).enterVector nmiVector := by
      rw [State.waitBoundary, if_pos hlatch]
      rfl
    exact step_of_waitExit hu hr hb
  case irq =>
    have hb : s.waitBoundary = (s.leaveWait.restoreNmi s.pulseE.sys.nmiLatch).enterVector irqVector := by
      rw [State.waitBoundary, if_neg (by simp [hlatch]), if_pos (by simp [hi, hirq])]
      rfl
    exact step_of_waitExit hu hr hb
  case stay =>
    have hb : s.waitBoundary = s := by
      have hnone : (!s.cpu.ccr.i && s.irqPresent) = false := by
        rcases hneither with hi | hirq
        · simp [hi]
        · simp [hirq]
      rw [State.waitBoundary, if_neg (by simp [hlatch]), if_neg (by simp [hnone])]
    have hstep := step_of_waiting hu hr
    obtain ⟨_, _, _, _, hn, hc, _⟩ := hu
    rw [hb, s.settle_of_quiet hn hc] at hstep
    exact hstep

/-! ### A frame stacked and pulled again -/

/-- Where the addresses of a frame are different cells of read/write memory, each holds its byte after the frame has been
written (R361). -/
theorem State.framed_cell {s : State} (ret : Word) (hram : FrameInRam s.sys s.cpu.sp) (hw : s.sys.ram.wf = true)
    (hc : s.sys.resCut = none) (hs : s.sys.steals = []) :
    ∀ q ∈ (frameAddresses s.cpu.sp).zip (frameBytes s.cpu ret), (s.framed ret).cell q.1 = some q.2 := by
  obtain ⟨cells, hnodup, hregions⟩ := hram
  have haddresses : ((frameAddresses s.cpu.sp).zip (frameBytes s.cpu ret)).map Prod.fst = frameAddresses s.cpu.sp :=
    List.map_fst_zip (Nat.le_refl 7)
  have hdistinct : ((frameAddresses s.cpu.sp).map s.sys.region).Nodup := by
    rw [hregions]
    exact hnodup.map fun _ _ => Region.ram.inj
  rw [← haddresses, List.map_map] at hdistinct hregions
  refine System.writes_cell_self _ _ hw hc hs (List.pairwise_map.mp hdistinct) ?_
  intro q hq
  obtain ⟨c, _, hcell⟩ := List.mem_map.mp (hregions ▸ List.mem_map_of_mem hq)
  exact ⟨c, hcell.symm⟩

/-- A return from an interrupt that finds the frame of the registers `p` and the return address `ret` in memory brings them
back (R376). -/
theorem State.returnFromInterrupt_of_frame {u : State} {p : Cpu} {ret : Word} (hs : u.sys.steals = [])
    (hsp : u.cpu.sp = p.sp - 7)
    (hcells : ∀ q ∈ (frameAddresses p.sp).zip (frameBytes p ret), u.sys.cell q.1 = some q.2) :
    u.returnFromInterrupt.cpu = { p with pc := ret } := by
  simp only [frameAddresses, frameBytes, List.zip_cons_cons, List.zip_nil_left, List.forall_mem_cons] at hcells
  obtain ⟨hpcLow, hpcHigh, hxLow, hxHigh, ha, hb, hccr, _⟩ := hcells
  have hread {a b : Word} {v : Byte} (hcell : u.sys.cell b = some v) (hab : a = b) : u.sys.read a = (v, u.sys) := by
    rw [hab]
    exact u.sys.read_of_cell b v hs hcell
  have h1 := hread hccr (a := u.cpu.sp + 1) (by bv_omega)
  have h2 := hread hb (a := u.cpu.sp + 2) (by bv_omega)
  have h3 := hread ha (a := u.cpu.sp + 3) (by bv_omega)
  have h4 := hread hxHigh (a := u.cpu.sp + 4) (by bv_omega)
  have h5 := hread hxLow (a := u.cpu.sp + 5) (by bv_omega)
  have h6 := hread hpcHigh (a := u.cpu.sp + 6) (by bv_omega)
  have h7 := hread hpcLow (a := u.cpu.sp + 7) (by bv_omega)
  have hback : u.cpu.sp + 7 = p.sp := by bv_omega
  obtain ⟨hcpu, _⟩ := u.returnFromInterrupt_spec
  simp only [hcpu, h1, h2, h3, h4, h5, h6, h7, joinBytes_high_low, Ccr.ofByte_toByte]
  rw [hback]

/-- Settles O49: SWI leaves its frame in memory, and RTI finds it there. -/
theorem interruptThenReturn : Obligations.InterruptThenReturn := by
  intro s t u hram hw hc hs hswi hsp husteals hsame
  obtain ⟨t', hexec, hcpu, hsys, _⟩ := exec_swi_spec s
  obtain rfl : t' = t := Host.Outcome.next.inj (hexec.symm.trans hswi)
  have hback : u.cpu.sp = s.cpu.sp - 7 := by rw [hsp, hcpu, vectored]
  refine ⟨_, exec_rti u, State.returnFromInterrupt_of_frame (u := u.past .rti) husteals hback ?_⟩
  have hsteals : (s.clearNmi.framed (s.cpu.pc + 1)).steals = [] := System.writes_steals _ _ hs
  intro q hq
  calc u.sys.cell q.1 = t'.sys.cell q.1 := hsame q.1 (List.of_mem_zip hq).1
    _ = (System.read16 _ _).2.cell q.1 := congrArg (System.cell · q.1) hsys
    _ = System.cell _ q.1 := System.read16_cell _ _ _ hsteals
    _ = (s.clearNmi.framed (s.cpu.pc + 1)).cell q.1 := System.cell_congr _ _ rfl rfl rfl q.1
    _ = some q.2 := State.framed_cell (s := s.clearNmi) (s.cpu.pc + 1) hram hw hc hs q hq

end Sys2Proof.Machine

/-! PROOF. The statements of 60_exceptions.md about the devices: the PIA's registers, edges, flags and outputs (R420 to R446),
and the ACIA in service, in master reset and in the power-on hold (R450 to R470). -/

namespace Sys2Proof

section fields
variable {n : Nat} (x : BitVec n) (start : Nat)

/-- A field of two bits, bit by bit. -/
theorem extractLsb'_two_eq_iff (v : BitVec 2) :
    x.extractLsb' start 2 = v ↔ x.getLsbD start = v.getLsbD 0 ∧ x.getLsbD (start + 1) = v.getLsbD 1 := by
  constructor
  · rintro rfl
    simp
  · rintro ⟨h0, h1⟩
    refine BitVec.eq_of_getLsbD_eq fun k hk => ?_
    interval_cases k <;> simp [h0, h1]

/-- A field of three bits, bit by bit. -/
theorem extractLsb'_three_eq_iff (v : BitVec 3) :
    x.extractLsb' start 3 = v ↔
      x.getLsbD start = v.getLsbD 0 ∧ x.getLsbD (start + 1) = v.getLsbD 1 ∧ x.getLsbD (start + 2) = v.getLsbD 2 := by
  constructor
  · rintro rfl
    simp
  · rintro ⟨h0, h1, h2⟩
    refine BitVec.eq_of_getLsbD_eq fun k hk => ?_
    interval_cases k <;> simp [h0, h1, h2]

end fields

end Sys2Proof

namespace Sys2Proof.Machine

/-! ### A side of the PIA -/

section side
variable (q : PiaSide)

/-- The mode bits b5 b4 b3 of the handshake (R430). -/
theorem PiaSide.handshake_iff : q.handshake = true ↔ q.cr.extractLsb' 3 3 = 0b100 := by
  rw [extractLsb'_three_eq_iff]
  simp [PiaSide.handshake, and_comm]

/-- The mode bits b5 b4 b3 of the pulse strobe (R430). -/
theorem PiaSide.pulse_iff : q.pulse = true ↔ q.cr.extractLsb' 3 3 = 0b101 := by
  rw [extractLsb'_three_eq_iff]
  simp [PiaSide.pulse, and_comm]

theorem PiaSide.strobe_eq :
    q.strobe =
      (let mode := q.cr.extractLsb' 3 3
      { q with
        c2 := if mode = 0b100 then false else if mode = 0b101 then true else q.c2
        strobes := if mode = 0b101 then q.strobes + 1 else q.strobes }) := by
  unfold PiaSide.strobe
  simp only [PiaSide.handshake_iff, PiaSide.pulse_iff]
  split
  · next h => simp [h]
  · split <;> rfl

theorem PiaSide.levelsA_getLsbD {k : Nat} (hk : k < 8) :
    q.levelsA.getLsbD k =
      if q.ddr.getLsbD k then q.out.getLsbD k && !q.load.getLsbD k else q.pins.getLsbD k := by
  simp only [PiaSide.levelsA, BitVec.getLsbD_or, BitVec.getLsbD_and, BitVec.getLsbD_not, hk]
  cases q.ddr.getLsbD k <;> simp

theorem PiaSide.levelsB_getLsbD {k : Nat} (hk : k < 8) :
    q.levelsB.getLsbD k = if q.ddr.getLsbD k then q.out.getLsbD k else q.pins.getLsbD k := by
  simp only [PiaSide.levelsB, BitVec.getLsbD_or, BitVec.getLsbD_and, BitVec.getLsbD_not, hk]
  cases q.ddr.getLsbD k <;> simp

theorem PiaSide.writeControl_eq (v : Byte) :
    q.writeControl v = { q with
      cr := v.extractLsb' 0 6
      c2 := if v.extractLsb' 4 2 = 0b11 then v.getLsbD 3
            else if v.getLsbD 5 = true ∧ q.cr.getLsbD 5 = false then true
            else q.c2 } := by
  simp only [extractLsb'_two_eq_iff]
  simp [PiaSide.writeControl, PiaSide.c2Output, and_comm]

theorem PiaSide.irqLow_iff :
    q.irqLow = true ↔
      (q.irq1 = true ∧ q.cr.getLsbD 0 = true) ∨
        (q.irq2 = true ∧ q.cr.getLsbD 3 = true ∧ q.cr.getLsbD 5 = false) := by
  simp [PiaSide.irqLow, and_assoc]

/-- A transition of C1 brings C2 back high in the handshake mode alone (R437, R438). -/
theorem PiaSide.restoredC2_eq (active : Bool) :
    (q.c2 || (active && q.handshake)) =
      if active = true ∧ q.cr.extractLsb' 3 3 = 0b100 then true else q.c2 := by
  simp only [← q.handshake_iff]
  cases active <;> cases q.handshake <;> simp

/-- An active edge of C1: it sets the flag and restores C2, waits, or is dropped (R428, R437, R438, R441). -/
theorem PiaSide.edge1_active (gone starve : Bool) :
    q.edge1 (q.cr.getLsbD 1) gone starve =
      if starve = false then
        { q with irq1 := true, c2 := if q.cr.extractLsb' 3 3 = 0b100 then true else q.c2 }
      else if gone = true ∧ q.starved1 = true then q
      else { q with pending1 := true } := by
  have hc2 : (q.c2 || q.handshake) = if q.cr.extractLsb' 3 3 = 0b100 then true else q.c2 := by
    simpa using q.restoredC2_eq true
  simp [PiaSide.edge1, hc2]

theorem PiaSide.edge1_inactive (gone starve : Bool) :
    q.edge1 (!q.cr.getLsbD 1) gone starve = { q with starved1 := starve } := by
  simp [PiaSide.edge1]

/-- An edge of C2 as an input (R429). -/
theorem PiaSide.edge2_input (h : q.cr.getLsbD 5 = false) (rising gone starve : Bool) :
    q.edge2 rising gone starve =
      if rising == q.cr.getLsbD 4 then
        if !starve then { q with irq2 := true }
        else if gone && q.starved2 then q
        else { q with pending2 := true }
      else { q with starved2 := starve } :=
  if_neg (Bool.eq_false_iff.1 h)

/-- An active edge of C2 as an input: it sets the flag, waits, or is dropped (R429, R441). -/
theorem PiaSide.edge2_active (h : q.cr.getLsbD 5 = false) (gone starve : Bool) :
    q.edge2 (q.cr.getLsbD 4) gone starve =
      if starve = false then { q with irq2 := true }
      else if gone = true ∧ q.starved2 = true then q
      else { q with pending2 := true } := by
  rw [q.edge2_input h]
  simp

theorem PiaSide.edge2_inactive (h : q.cr.getLsbD 5 = false) (gone starve : Bool) :
    q.edge2 (!q.cr.getLsbD 4) gone starve = { q with starved2 := starve } := by
  rw [q.edge2_input h]
  simp

/-- No edge of C2 as an output does anything (R430). -/
theorem PiaSide.edge2_output (h : q.cr.getLsbD 5 = true) (rising gone starve : Bool) :
    q.edge2 rising gone starve = q :=
  if_pos h

theorem PiaSide.pulseE_eq :
    q.pulseE = { q with
      irq1 := q.irq1 || q.pending1, irq2 := q.irq2 || (q.pending2 && !q.cr.getLsbD 5)
      c2 := if q.pending1 = true ∧ q.cr.extractLsb' 3 3 = 0b100 then true else q.c2
      starved1 := false, starved2 := false, pending1 := false, pending2 := false } := by
  rw [← q.restoredC2_eq]
  rfl

theorem PiaSide.reset_control : q.reset.control = 0 := by
  simp [PiaSide.reset, PiaSide.control]

/-- A control word leaves the flags, and the output follows them through its enables (R432, R433). -/
theorem PiaSide.writeControl_irqLow_iff (v : Byte) :
    (q.writeControl v).irqLow = true ↔
      (q.irq1 = true ∧ v.getLsbD 0 = true) ∨ (q.irq2 = true ∧ v.getLsbD 3 = true ∧ v.getLsbD 5 = false) := by
  rw [PiaSide.irqLow_iff]
  simp [PiaSide.writeControl_eq]

end side

/-! ### The registers of the PIA -/

section registers
variable (p : Pia)

/-- The four registers a read can reach (R421). -/
theorem Pia.read_eq :
    p.read 0b00 =
        (if p.sideA.cr.getLsbD 2 then (p.sideA.levelsA, { p with sideA := p.sideA.clearFlags.strobe })
        else (p.sideA.ddr, p)) ∧
      p.read 0b01 = (p.sideA.control, p) ∧
      p.read 0b10 =
        (if p.sideB.cr.getLsbD 2 then (p.sideB.levelsB, { p with sideB := p.sideB.clearFlags })
        else (p.sideB.ddr, p)) ∧
      p.read 0b11 = (p.sideB.control, p) :=
  ⟨rfl, rfl, rfl, rfl⟩

/-- The four registers a write can reach (R421). -/
theorem Pia.write_eq (v : Byte) :
    p.write 0b00 v = { p with sideA := p.sideA.writeData v } ∧
      p.write 0b01 v = { p with sideA := p.sideA.writeControl v } ∧
      p.write 0b10 v =
        (if p.sideB.cr.getLsbD 2 then { p with sideB := (p.sideB.writeData v).strobe }
        else { p with sideB := p.sideB.writeData v }) ∧
      p.write 0b11 v = { p with sideB := p.sideB.writeControl v } :=
  ⟨rfl, rfl, rfl, rfl⟩

end registers

/-- Settles O56, register by register: only the read of an output register has an effect. -/
theorem piaRegisterRead : Obligations.PiaRegisterRead := by
  intro p modeA control
  obtain ⟨hdataA, hcontrolA, hdataB, hcontrolB⟩ := p.read_eq
  refine ⟨fun h => ?outputA, fun h => ?outputB, fun h => ?directionA, fun h => ?directionB, hcontrolA, hcontrolB⟩
  case outputA =>
    rw [hdataA, if_pos h, PiaSide.strobe_eq]
    exact ⟨fun k hk => p.sideA.levelsA_getLsbD hk, rfl⟩
  case outputB =>
    rw [hdataB, if_pos h]
    exact ⟨fun k hk => p.sideB.levelsB_getLsbD hk, rfl⟩
  case directionA => rw [hdataA, if_neg (Bool.eq_false_iff.1 h)]
  case directionB => rw [hdataB, if_neg (Bool.eq_false_iff.1 h)]

/-- Settles O57, register by register: side B alone strobes on a write. -/
theorem piaRegisterWrite : Obligations.PiaRegisterWrite := by
  intro p v modeB controlled
  obtain ⟨hdataA, hcontrolA, hdataB, hcontrolB⟩ := p.write_eq v
  have hout {q : PiaSide} (h : q.cr.getLsbD 2 = true) : q.writeData v = { q with out := v } := if_pos h
  have hddr {q : PiaSide} (h : q.cr.getLsbD 2 = false) : q.writeData v = { q with ddr := v } :=
    if_neg (Bool.eq_false_iff.1 h)
  refine ⟨fun h => ?directionA, fun h => ?directionB, fun h => ?outputA, fun h => ?outputB, ?controlA, ?controlB⟩
  case directionA => rw [hdataA, hddr h]
  case directionB => rw [hdataB, if_neg (Bool.eq_false_iff.1 h), hddr h]
  case outputA => rw [hdataA, hout h]
  case outputB => rw [hdataB, if_pos h, hout h, PiaSide.strobe_eq]
  case controlA => rw [hcontrolA, PiaSide.writeControl_eq]
  case controlB => rw [hcontrolB, PiaSide.writeControl_eq]

/-- Settles O58: the two sides are alike, and each line and each control register is its side's. -/
theorem piaInterruptFlags : Obligations.PiaInterruptFlags := by
  intro p missed starve late edges written
  have edges_of_side (c1 c2 : PiaLine) (q : PiaSide) (put : PiaSide → Pia) (hput : put q = p)
      (h1 : ∀ rising, p.edge c1 rising missed starve = put (q.edge1 rising missed late))
      (h2 : ∀ rising, p.edge c2 rising missed starve = put (q.edge2 rising missed late)) : edges c1 c2 q put := by
    refine ⟨?_, ?_, fun hin => ⟨?_, ?_⟩, fun hout rising => ?_, q.pulseE_eq, q.irqLow_iff⟩
    · rw [h1, q.edge1_active, apply_ite put, apply_ite put, hput]
    · rw [h1, q.edge1_inactive]
    · rw [h2, q.edge2_active hin, apply_ite put, apply_ite put, hput]
    · rw [h2, q.edge2_inactive hin]
    · rw [h2, q.edge2_output hout, hput]
  have written_of_side (q : PiaSide) (v : Byte) : written q (q.writeControl v) v :=
    ⟨rfl, rfl, fun hflag h0 => (q.writeControl_irqLow_iff v).2 (.inl ⟨hflag, h0⟩),
      fun hflag h5 h3 => (q.writeControl_irqLow_iff v).2 (.inr ⟨hflag, h3, h5⟩)⟩
  exact ⟨edges_of_side .ca1 .ca2 p.sideA (fun q => { p with sideA := q }) rfl (fun _ => rfl) (fun _ => rfl),
    edges_of_side .cb1 .cb2 p.sideB (fun q => { p with sideB := q }) rfl (fun _ => rfl) (fun _ => rfl),
    fun v => ⟨written_of_side p.sideA v, written_of_side p.sideB v⟩, rfl, rfl,
    p.sideA.reset_control, p.sideB.reset_control⟩

/-! ### The ACIA -/

section acia
variable {p : Acia}

/-- A status read arms the clearing of a DCD flag that is set (R460). -/
theorem Acia.readStatus_snd : (p.read false).2 = { p with dcdArmed := p.dcdArmed || p.dcdFlag } := rfl

/-- A data read clears the DCD flag if a status read has armed that (R460). -/
theorem Acia.readData_dcdFlag : (p.read true).2.dcdFlag = (p.dcdFlag && !p.dcdArmed) := rfl

/-- In service there is neither hold nor master reset (R464 to R466). -/
theorem Acia.quiet_eq_false_iff : p.quiet = false ↔ p.hold = false ∧ p.inReset = false := by
  simp [Acia.quiet]

/-- The two low bits of a control word that ask for a master reset (R452). -/
theorem masterResetWord_iff (v : Byte) :
    (v.getLsbD 1 && v.getLsbD 0) = true ↔ v.extractLsb' 0 2 = 0b11 := by
  rw [extractLsb'_two_eq_iff]
  simp [and_comm]

/-- A control word of 11 in its two low bits is a master reset (R465). -/
theorem Acia.write_masterReset {v : Byte} (h : v.extractLsb' 0 2 = 0b11) : p.write false v = p.masterReset v :=
  if_pos ((masterResetWord_iff v).2 h)

/-- The first other control word ends the master reset and finds the transmitter empty (R465). -/
theorem Acia.write_endReset {v : Byte} (h : v.extractLsb' 0 2 ≠ 0b11) (hin : p.inReset = true) :
    p.write false v = { p with cr := v, tdrEmpty := true } :=
  (if_neg ((masterResetWord_iff v).not.2 h)).trans (if_pos hin)

/-- The interrupt output in service (R464). -/
theorem Acia.irqLow_iff (h : p.quiet = false) :
    p.irqLow = true ↔
      p.cr.getLsbD 7 = true ∧ (p.rdrf = true ∨ p.dcdFlag = true) ∨
        p.cr.extractLsb' 5 2 = 0b01 ∧ p.tdrEmpty = true ∧ p.ctsHigh = false := by
  rw [extractLsb'_two_eq_iff]
  simp [Acia.irqLow, Acia.tdre, h, and_comm]

/-- The status register in service (R456). -/
theorem Acia.status_of_service (h : p.quiet = false) :
    p.status =
      BitVec.ofBool p.irqLow ++ BitVec.ofBool p.pe ++ BitVec.ofBool p.ovrn ++ BitVec.ofBool p.fe ++
        BitVec.ofBool p.ctsHigh ++ BitVec.ofBool (p.dcdFlag || p.dcdHigh) ++ BitVec.ofBool (p.tdrEmpty && !p.ctsHigh) ++
        BitVec.ofBool p.rdrf := by
  obtain ⟨hhold, hreset⟩ := Acia.quiet_eq_false_iff.1 h
  simp [Acia.status, Acia.dcdBit, Acia.tdre, h, hhold, hreset]

/-- There is no interrupt in the hold or a master reset (R464). -/
theorem Acia.irqLow_of_quiet (h : p.quiet = true) : p.irqLow = false := by
  simp [Acia.irqLow, h]

/-- In the hold or a master reset the status register shows the levels alone (R459, R465, R466). -/
theorem Acia.status_of_quiet (h : p.quiet = true) :
    p.status = (if p.ctsHigh then 0x08 else 0x00) + if p.dcdBit then 0x04 else 0x00 := by
  simp only [Acia.status, Acia.irqLow_of_quiet h, h, Bool.not_true, Bool.false_and]
  cases p.ctsHigh <;> cases p.dcdBit <;> rfl

/-- A master reset clears b2 whatever the level of DCD-bar is (R465). -/
theorem Acia.dcdBit_of_inReset (hhold : p.hold = false) (hin : p.inReset = true) : p.dcdBit = false := by
  simp [Acia.dcdBit, hhold, hin]

/-- Where the receiver has nothing to say, the output is the transmitter's request (R464). -/
theorem Acia.irqLow_of_noReceive (h : p.quiet = false) (hfree : p.rdrf = false) (hdcd : p.dcdFlag = false) :
    p.irqLow = (p.tdre && p.cr.getLsbD 5 && !p.cr.getLsbD 6) := by
  simp [Acia.irqLow, h, hfree, hdcd, Bool.and_comm, Bool.and_assoc]

end acia

/-- Settles O59, access by access and event by event. -/
theorem aciaDataRegisters : Obligations.AciaDataRegisters := by
  intro p c fe pe
  refine ⟨rfl, rfl, rfl, rfl, rfl, fun hq hfree => ?received, fun hq hfull => ?overrun, fun hq => ?sent,
    fun hq => ⟨Acia.irqLow_iff hq, Acia.status_of_service hq⟩, fun hq hcarrier => ?lost,
    fun hflag => ⟨?armed, ?cleared⟩, fun harm => ?kept⟩
  case received => simp [Acia.rxChar, hq, hfree]
  case overrun => simp [Acia.rxChar, hq, hfull]
  case sent =>
    have hq' : (p.write true c).quiet = false := hq
    rw [Acia.txReady, hq']
    rfl
  case lost => simp [Acia.setDcd, hq, hcarrier]
  case armed => rw [Acia.readStatus_snd, hflag, Bool.or_true]
  case cleared => rw [Acia.readData_dcdFlag, Acia.readStatus_snd, hflag, Bool.or_true, Bool.not_true, Bool.and_false]
  case kept => rw [Acia.readData_dcdFlag, harm, Bool.not_false, Bool.and_true]

/-- Settles O60: the state of a master reset, its end by another control word, and the power-on hold. -/
theorem aciaMasterReset : Obligations.AciaMasterReset := by
  intro p v w
  refine ⟨fun hv hw => ?reset, fun hhold => ?hold⟩
  case reset =>
    have hin : (p.masterReset v).inReset = true := (masterResetWord_iff v).2 hv
    have hquiet : (p.masterReset v).quiet = true := hin
    have hservice : Acia.quiet { p.masterReset v with cr := w, tdrEmpty := true } = false :=
      Bool.eq_false_iff.2 ((masterResetWord_iff w).not.2 hw)
    rw [Acia.write_masterReset hv, Acia.write_endReset hw hin]
    refine ⟨Acia.irqLow_of_quiet hquiet, ?_, rfl, rfl, ?_⟩
    · rw [Acia.status_of_quiet hquiet, Acia.dcdBit_of_inReset rfl hin]
      exact add_zero _
    · exact Acia.irqLow_of_noReceive hservice rfl rfl
  case hold =>
    have hquiet : p.quiet = true := by simp [Acia.quiet, hhold]
    have hdcd : p.dcdBit = p.dcdHigh := if_pos hhold
    rw [Acia.status_of_quiet hquiet, hdcd]
    exact ⟨Acia.irqLow_of_quiet hquiet, rfl⟩

end Sys2Proof.Machine

/-! PROOF. The statement of 70_reset_and_hazards.md about the MPU: the reset sequence (R490, R491, R493). -/

namespace Sys2Proof.Machine

section reset
variable {s : State}

/-- When RES rises on a held machine, and no other master has the bus, the boundary is the reset sequence (R372, R490). -/
theorem State.boundary_of_held (hres : s.env.resLow = false) (htsc : s.env.tscHigh = false)
    (hr : s.ctl.runState = .held) : s.boundary = .over s.resetSequence := by
  simp [State.boundary, hres, htsc, hr]

/-- The bus that the vector reads of the reset sequence find: the registers are drawn, and an NMI edge that a PIA makes at
the E pulses is forgotten (log 10, log 27). -/
def State.resetBus (s : State) : System := { s.pulseE.sys with draws := s.sys.draws + 1, nmiLatch := false }

/-- The registers after the reset sequence: free values, but for I and PC (R491, log 10). -/
theorem State.resetSequence_cpu :
    s.resetSequence.cpu =
      { a := Config.resetA s.sys.draws, b := Config.resetB s.sys.draws, x := Config.resetX s.sys.draws,
        sp := Config.resetSP s.sys.draws, pc := (s.resetBus.read16 resVector).1, ccr := resetFlags s.sys.draws } := rfl

/-- The latches and the hold-offs after the reset sequence; HALT low leaves the machine halted (R493, log 21). -/
theorem State.resetSequence_ctl :
    s.resetSequence.ctl =
      { runState := if s.env.haltLow then .halted else .running, irqLatch := false, irqHoldoff := false,
        haltHoldoff := false, prevOpcodeLsb := false } := rfl

/-- The reset sequence makes two reads and no write (R490). -/
theorem State.resetSequence_sys : s.resetSequence.sys = (s.resetBus.read16 resVector).2 := rfl

theorem State.resetSequence_env : s.resetSequence.env = s.env := rfl

/-- Nothing is stacked: the reset sequence changes no byte of memory (R491). -/
theorem State.resetSequence_sameBytes : SameBytes s.sys s.resetSequence.sys := by
  intro hs a
  calc s.resetSequence.sys.cell a = (s.resetBus.read16 resVector).2.cell a := by rw [State.resetSequence_sys]
    _ = s.resetBus.cell a := s.resetBus.read16_cell resVector a hs
    _ = s.sys.cell a := System.cell_congr _ _ rfl rfl rfl a

/-- The end of the reset sequence: I is set, so that an IRQ pulse during it is lost (R367, log 22). -/
theorem State.resetSequence_settle (hn : s.env.nmiDuring = false) (hc : s.sys.resCut = none) :
    s.resetSequence.settle = { s.resetSequence with env := { s.env with irqDuring := false } } := by
  have hcut : s.resetSequence.sys.resCut = none := by
    rw [State.resetSequence_sys, System.read16_resCut]
    exact hc
  have hmasked : s.resetSequence.cpu.ccr.i = true := by
    rw [State.resetSequence_cpu]
    rfl
  rw [State.settle_of_masked (s := s.resetSequence) hn hcut hmasked, State.resetSequence_env]

end reset

/-- Settles O48: the step is the reset sequence of the boundary and its end. -/
theorem resetSequence : Obligations.ResetSequence := by
  intro s hempty hres htsc hn hc hr y
  have hstep : step s = .next { s.resetSequence with env := { s.env with irqDuring := false } } := by
    rw [step_of_empty s hempty, State.boundary_of_held hres htsc hr, Decision.outcome,
      State.resetSequence_settle hn hc]
  have hcpu := State.resetSequence_cpu (s := s)
  exact ⟨_, hstep, congrArg Cpu.pc hcpu, congrArg (·.ccr.i) hcpu, congrArg Cpu.ccr hcpu, congrArg Cpu.a hcpu,
    congrArg Cpu.b hcpu, congrArg Cpu.x hcpu, congrArg Cpu.sp hcpu, State.resetSequence_ctl, rfl,
    State.resetSequence_sys, State.resetSequence_sameBytes⟩

end Sys2Proof.Machine
